-- ==== Sys2Proof/Word.lean ====
section
/-! DEFINITION. The word types of the core: 8-bit bytes, 16-bit words, and the indices the spec gives fixed ranges.
All values are unsigned (00_scope.md R7). -/

namespace Sys2Proof

/-- An 8-bit value: a general register, a memory byte, a timer, an immediate (R5). -/
abbrev Byte := BitVec 8

/-- A 16-bit value: the instruction word, `I`, `PC`, a stack entry (R5). -/
abbrev Word := BitVec 16

/-- A 12-bit address field `nnn` (30_encoding.md R71). -/
abbrev Addr := BitVec 12

/-- The index of a general register, V0..VF; every 4-bit value is a register (30_encoding.md R73). -/
abbrev RegIdx := Fin 16

/-- The code of a key, 0x0..0xF (10_state.md R29). -/
abbrev KeyCode := Fin 16

/-- VF, the general register that doubles as the flag (10_state.md R21). -/
abbrev VF : RegIdx := 15

end Sys2Proof
end

