-- ==== Sys2Proof/Syntax.lean ====
section
/-! DEFINITION. The 34 instructions, one constructor per row of spec/opcode_table.json, in the table's order
(30_encoding.md R75), with the operands of their rules and no raw encodings. -/

namespace Sys2Proof

/-- An instruction. `x`, `y` are register indices, `nn` a byte, `nnn` a 12-bit address, `n` a row count (R73). -/
inductive Instr where
  /-- `00E0` clear-screen (R151). -/
  | clearScreen
  /-- `00EE` return (R110). -/
  | ret
  /-- `1NNN` jump (R111). -/
  | jump (nnn : Addr)
  /-- `2NNN` call (R113). -/
  | call (nnn : Addr)
  /-- `3XNN` skip-if-equal-immediate (R114). -/
  | skipIfEqualImmediate (x : RegIdx) (nn : Byte)
  /-- `4XNN` skip-if-not-equal-immediate (R115). -/
  | skipIfNotEqualImmediate (x : RegIdx) (nn : Byte)
  /-- `5XY0` skip-if-registers-equal (R116). -/
  | skipIfRegistersEqual (x y : RegIdx)
  /-- `6XNN` set-immediate (R121). -/
  | setImmediate (x : RegIdx) (nn : Byte)
  /-- `7XNN` add-immediate (R122). -/
  | addImmediate (x : RegIdx) (nn : Byte)
  /-- `8XY0` move (R123). -/
  | move (x y : RegIdx)
  /-- `8XY1` or (R124). -/
  | bitOr (x y : RegIdx)
  /-- `8XY2` and (R125). -/
  | bitAnd (x y : RegIdx)
  /-- `8XY3` xor (R126). -/
  | bitXor (x y : RegIdx)
  /-- `8XY4` add (R127). -/
  | add (x y : RegIdx)
  /-- `8XY5` sub (R128). -/
  | sub (x y : RegIdx)
  /-- `8XY6` shift-right (R129): any `y` field is the same instruction (R72). -/
  | shiftRight (x : RegIdx)
  /-- `8XY7` sub-reverse (R130). -/
  | subReverse (x y : RegIdx)
  /-- `8XYE` shift-left (R131): any `y` field is the same instruction (R72). -/
  | shiftLeft (x : RegIdx)
  /-- `9XY0` skip-if-registers-not-equal (R117). -/
  | skipIfRegistersNotEqual (x y : RegIdx)
  /-- `ANNN` set-index (R141). -/
  | setIndex (nnn : Addr)
  /-- `BNNN` jump-with-offset, register 0 (R112). -/
  | jumpWithOffset (nnn : Addr)
  /-- `CXNN` random-and (R133). -/
  | randomAnd (x : RegIdx) (nn : Byte)
  /-- `DXYN` draw-sprite, `n` rows (R152). -/
  | drawSprite (x y : RegIdx) (n : Nat)
  /-- `EX9E` skip-if-key-pressed (R160). -/
  | skipIfKeyPressed (x : RegIdx)
  /-- `EXA1` skip-if-key-not-pressed (R161). -/
  | skipIfKeyNotPressed (x : RegIdx)
  /-- `FX07` get-delay (R163). -/
  | getDelay (x : RegIdx)
  /-- `FX0A` wait-key (R162). -/
  | waitKey (x : RegIdx)
  /-- `FX15` set-delay (R164). -/
  | setDelay (x : RegIdx)
  /-- `FX18` set-sound (R165). -/
  | setSound (x : RegIdx)
  /-- `FX1E` add-to-index (R142). -/
  | addToIndex (x : RegIdx)
  /-- `FX29` font-char-address (R146). -/
  | fontCharAddress (x : RegIdx)
  /-- `FX33` store-bcd (R143). -/
  | storeBcd (x : RegIdx)
  /-- `FX55` dump-registers, V0..Vx (R144). -/
  | dumpRegisters (x : RegIdx)
  /-- `FX65` load-registers, V0..Vx (R145). -/
  | loadRegisters (x : RegIdx)
  deriving DecidableEq, Repr

end Sys2Proof
end

