-- ==== Sys2Proof/WellFormed.lean ====
section
/-! DEFINITION. Which instruction terms have a word. Register indices, immediates and addresses fit their fields by
type; the one operand that is a plain count, the sprite height, must fit its 4-bit field (30_encoding.md R73,
45_display.md R154 (f)). Log entry 14. -/

namespace Sys2Proof

/-- `i` can be encoded: its sprite height, if it has one, is 0..15. -/
def Instr.wellFormed : Instr → Bool
  | .drawSprite _ _ n => decide (n ≤ 15)
  | .clearScreen | .ret | .jump _ | .call _ => true
  | .skipIfEqualImmediate _ _ | .skipIfNotEqualImmediate _ _ => true
  | .skipIfRegistersEqual _ _ | .skipIfRegistersNotEqual _ _ => true
  | .setImmediate _ _ | .addImmediate _ _ | .move _ _ => true
  | .bitOr _ _ | .bitAnd _ _ | .bitXor _ _ => true
  | .add _ _ | .sub _ _ | .subReverse _ _ | .shiftRight _ | .shiftLeft _ => true
  | .setIndex _ | .jumpWithOffset _ | .randomAnd _ _ => true
  | .skipIfKeyPressed _ | .skipIfKeyNotPressed _ => true
  | .getDelay _ | .waitKey _ | .setDelay _ | .setSound _ => true
  | .addToIndex _ | .fontCharAddress _ | .storeBcd _ | .dumpRegisters _ | .loadRegisters _ => true

end Sys2Proof
end

