-- ==== Sys2Proof/Decode.lean ====
section
/-! DEFINITION. The decoder, total on any bytes (30_encoding.md R78), the opcode map as a table (R75), and the encoder
(R82). The opcode numbers are PRESUMED: the spec marks all but `00E0` and `1NNN` as general knowledge (R76); log
entry 5. -/

namespace Sys2Proof

/-! ### The fields of the instruction word (R71) -/

/-- `op = w[15:12]`, the primary nibble. -/
def opField (w : Word) : Nat := (w.extractLsb' 12 4).toNat

/-- `x = w[11:8]`. -/
def xField (w : Word) : RegIdx := (w.extractLsb' 8 4).toFin

/-- `y = w[7:4]`. -/
def yField (w : Word) : RegIdx := (w.extractLsb' 4 4).toFin

/-- `n = w[3:0]`, as a count or a secondary selector. -/
def nField (w : Word) : Nat := (w.extractLsb' 0 4).toNat

/-- `nn = w[7:0]`. -/
def nnField (w : Word) : Byte := w.extractLsb' 0 8

/-- `nnn = w[11:0]`. -/
def nnnField (w : Word) : Addr := w.extractLsb' 0 12

/-! ### Dispatch (R74): the primary nibble, then the group's secondary selector -/

/-- Group 0x0: the whole low 12 bits select. -/
def decodeGroup0 (w : Word) : Option Instr :=
  if nnnField w = 0x0E0 then some .clearScreen
  else if nnnField w = 0x0EE then some .ret
  else none

/-- Group 0x8: the low nibble selects. -/
def decodeGroup8 (w : Word) : Option Instr :=
  match nField w with
  | 0x0 => some (.move (xField w) (yField w))
  | 0x1 => some (.bitOr (xField w) (yField w))
  | 0x2 => some (.bitAnd (xField w) (yField w))
  | 0x3 => some (.bitXor (xField w) (yField w))
  | 0x4 => some (.add (xField w) (yField w))
  | 0x5 => some (.sub (xField w) (yField w))
  | 0x6 => some (.shiftRight (xField w))
  | 0x7 => some (.subReverse (xField w) (yField w))
  | 0xE => some (.shiftLeft (xField w))
  | _ => none

/-- Group 0xE: the low byte selects. -/
def decodeGroupE (w : Word) : Option Instr :=
  if nnField w = 0x9E then some (.skipIfKeyPressed (xField w))
  else if nnField w = 0xA1 then some (.skipIfKeyNotPressed (xField w))
  else none

/-- Group 0xF: the low byte selects. -/
def decodeGroupF (w : Word) : Option Instr :=
  if nnField w = 0x07 then some (.getDelay (xField w))
  else if nnField w = 0x0A then some (.waitKey (xField w))
  else if nnField w = 0x15 then some (.setDelay (xField w))
  else if nnField w = 0x18 then some (.setSound (xField w))
  else if nnField w = 0x1E then some (.addToIndex (xField w))
  else if nnField w = 0x29 then some (.fontCharAddress (xField w))
  else if nnField w = 0x33 then some (.storeBcd (xField w))
  else if nnField w = 0x55 then some (.dumpRegisters (xField w))
  else if nnField w = 0x65 then some (.loadRegisters (xField w))
  else none

/-- The instruction a word stands for; `none` is the spec's Unknown (R77, R78). -/
def decodeWord (w : Word) : Option Instr :=
  match opField w with
  | 0x0 => decodeGroup0 w
  | 0x1 => some (.jump (nnnField w))
  | 0x2 => some (.call (nnnField w))
  | 0x3 => some (.skipIfEqualImmediate (xField w) (nnField w))
  | 0x4 => some (.skipIfNotEqualImmediate (xField w) (nnField w))
  | 0x5 => if nField w = 0 then some (.skipIfRegistersEqual (xField w) (yField w)) else none
  | 0x6 => some (.setImmediate (xField w) (nnField w))
  | 0x7 => some (.addImmediate (xField w) (nnField w))
  | 0x8 => decodeGroup8 w
  | 0x9 => if nField w = 0 then some (.skipIfRegistersNotEqual (xField w) (yField w)) else none
  | 0xA => some (.setIndex (nnnField w))
  | 0xB => some (.jumpWithOffset (nnnField w))
  | 0xC => some (.randomAnd (xField w) (nnField w))
  | 0xD => some (.drawSprite (xField w) (yField w) (nField w))
  | 0xE => decodeGroupE w
  | 0xF => decodeGroupF w
  | _ => none

/-- What decoding a byte string answers: an instruction with the bytes after it, or a rejection by name. -/
inductive DecodeResult where
  /-- The first two bytes are a row of the opcode map. -/
  | instr (i : Instr) (rest : List Byte)
  /-- The first two bytes match no row (R77); executing them is a reported no-op (R104), not a fault. -/
  | unknownOpcode (w : Word) (rest : List Byte)
  /-- Fewer than two bytes: no instruction word (R70). -/
  | truncated
  deriving DecidableEq, Repr

/-- The instruction word of two bytes, the first the high one (20_memory.md R53, R55). -/
def wordOfBytes (hi lo : Byte) : Word := hi ++ lo

/-- Decodes the instruction at the head of a byte string. -/
def decodeBytes : List Byte → DecodeResult
  | hi :: lo :: rest =>
    match decodeWord (wordOfBytes hi lo) with
    | some i => .instr i rest
    | none => .unknownOpcode (wordOfBytes hi lo) rest
  | _ => .truncated

/-! ### The words of the instructions (R72, R82) -/

/-- A register index as its 4-bit field. -/
def regBits (r : RegIdx) : BitVec 4 := BitVec.ofNat 4 r.val

/-- Format `A`: `op nnn`. -/
def wordA (op : BitVec 4) (nnn : Addr) : Word := op ++ nnn

/-- Format `XI`, and format `X` with its selector as `nn`: `op x nn`. -/
def wordXI (op : BitVec 4) (x : RegIdx) (nn : Byte) : Word := op ++ regBits x ++ nn

/-- Formats `XY` and `XYN`: `op x y n`. -/
def wordXY (op : BitVec 4) (x y : RegIdx) (n : BitVec 4) : Word := op ++ regBits x ++ regBits y ++ n

/-- The word of a well-formed instruction (R82); the shifts carry `y = 0`. -/
def encode : Instr → Word
  | .clearScreen => wordA 0x0 0x0E0
  | .ret => wordA 0x0 0x0EE
  | .jump nnn => wordA 0x1 nnn
  | .call nnn => wordA 0x2 nnn
  | .skipIfEqualImmediate x nn => wordXI 0x3 x nn
  | .skipIfNotEqualImmediate x nn => wordXI 0x4 x nn
  | .skipIfRegistersEqual x y => wordXY 0x5 x y 0x0
  | .setImmediate x nn => wordXI 0x6 x nn
  | .addImmediate x nn => wordXI 0x7 x nn
  | .move x y => wordXY 0x8 x y 0x0
  | .bitOr x y => wordXY 0x8 x y 0x1
  | .bitAnd x y => wordXY 0x8 x y 0x2
  | .bitXor x y => wordXY 0x8 x y 0x3
  | .add x y => wordXY 0x8 x y 0x4
  | .sub x y => wordXY 0x8 x y 0x5
  | .shiftRight x => wordXY 0x8 x 0 0x6
  | .subReverse x y => wordXY 0x8 x y 0x7
  | .shiftLeft x => wordXY 0x8 x 0 0xE
  | .skipIfRegistersNotEqual x y => wordXY 0x9 x y 0x0
  | .setIndex nnn => wordA 0xA nnn
  | .jumpWithOffset nnn => wordA 0xB nnn
  | .randomAnd x nn => wordXI 0xC x nn
  | .drawSprite x y n => wordXY 0xD x y (BitVec.ofNat 4 n)
  | .skipIfKeyPressed x => wordXI 0xE x 0x9E
  | .skipIfKeyNotPressed x => wordXI 0xE x 0xA1
  | .getDelay x => wordXI 0xF x 0x07
  | .waitKey x => wordXI 0xF x 0x0A
  | .setDelay x => wordXI 0xF x 0x15
  | .setSound x => wordXI 0xF x 0x18
  | .addToIndex x => wordXI 0xF x 0x1E
  | .fontCharAddress x => wordXI 0xF x 0x29
  | .storeBcd x => wordXI 0xF x 0x33
  | .dumpRegisters x => wordXI 0xF x 0x55
  | .loadRegisters x => wordXI 0xF x 0x65

/-- The bytes of an instruction as memory holds them, high byte first (R55). -/
def encodeBytes (i : Instr) : List Byte := [(encode i).extractLsb' 8 8, (encode i).extractLsb' 0 8]

/-! ### The opcode map as the spec prints it (R75) -/

/-- One row of the opcode map: `w` is the instruction iff `w &&& mask = pattern`. -/
structure OpcodeRow where
  /-- The "match" column. -/
  pattern : Word
  /-- The "mask" column. -/
  mask : Word
  /-- The instruction a matching word stands for. -/
  build : Word → Instr

/-- `w` matches the row. -/
def OpcodeRow.hits (r : OpcodeRow) (w : Word) : Bool := w &&& r.mask == r.pattern

/-- The 34 rows of R75, in its order. -/
def opcodeRows : List OpcodeRow :=
  [ ⟨0x00E0, 0xFFFF, fun _ => .clearScreen⟩,
    ⟨0x00EE, 0xFFFF, fun _ => .ret⟩,
    ⟨0x1000, 0xF000, fun w => .jump (nnnField w)⟩,
    ⟨0x2000, 0xF000, fun w => .call (nnnField w)⟩,
    ⟨0x3000, 0xF000, fun w => .skipIfEqualImmediate (xField w) (nnField w)⟩,
    ⟨0x4000, 0xF000, fun w => .skipIfNotEqualImmediate (xField w) (nnField w)⟩,
    ⟨0x5000, 0xF00F, fun w => .skipIfRegistersEqual (xField w) (yField w)⟩,
    ⟨0x6000, 0xF000, fun w => .setImmediate (xField w) (nnField w)⟩,
    ⟨0x7000, 0xF000, fun w => .addImmediate (xField w) (nnField w)⟩ ]
  ++ [ ⟨0x8000, 0xF00F, fun w => .move (xField w) (yField w)⟩,
    ⟨0x8001, 0xF00F, fun w => .bitOr (xField w) (yField w)⟩,
    ⟨0x8002, 0xF00F, fun w => .bitAnd (xField w) (yField w)⟩,
    ⟨0x8003, 0xF00F, fun w => .bitXor (xField w) (yField w)⟩,
    ⟨0x8004, 0xF00F, fun w => .add (xField w) (yField w)⟩,
    ⟨0x8005, 0xF00F, fun w => .sub (xField w) (yField w)⟩,
    ⟨0x8006, 0xF00F, fun w => .shiftRight (xField w)⟩,
    ⟨0x8007, 0xF00F, fun w => .subReverse (xField w) (yField w)⟩,
    ⟨0x800E, 0xF00F, fun w => .shiftLeft (xField w)⟩ ]
  ++ [ ⟨0x9000, 0xF00F, fun w => .skipIfRegistersNotEqual (xField w) (yField w)⟩,
    ⟨0xA000, 0xF000, fun w => .setIndex (nnnField w)⟩,
    ⟨0xB000, 0xF000, fun w => .jumpWithOffset (nnnField w)⟩,
    ⟨0xC000, 0xF000, fun w => .randomAnd (xField w) (nnField w)⟩,
    ⟨0xD000, 0xF000, fun w => .drawSprite (xField w) (yField w) (nField w)⟩,
    ⟨0xE09E, 0xF0FF, fun w => .skipIfKeyPressed (xField w)⟩,
    ⟨0xE0A1, 0xF0FF, fun w => .skipIfKeyNotPressed (xField w)⟩ ]
  ++ [ ⟨0xF007, 0xF0FF, fun w => .getDelay (xField w)⟩,
    ⟨0xF00A, 0xF0FF, fun w => .waitKey (xField w)⟩,
    ⟨0xF015, 0xF0FF, fun w => .setDelay (xField w)⟩,
    ⟨0xF018, 0xF0FF, fun w => .setSound (xField w)⟩,
    ⟨0xF01E, 0xF0FF, fun w => .addToIndex (xField w)⟩,
    ⟨0xF029, 0xF0FF, fun w => .fontCharAddress (xField w)⟩,
    ⟨0xF033, 0xF0FF, fun w => .storeBcd (xField w)⟩,
    ⟨0xF055, 0xF0FF, fun w => .dumpRegisters (xField w)⟩,
    ⟨0xF065, 0xF0FF, fun w => .loadRegisters (xField w)⟩ ]

/-! ### The host's question: the instruction of a table word -/

/-- The instruction the decoder reads from an instruction whose bits, numbered as spec/opcode_table.json numbers them,
are `w`: the word is laid out high byte first, as the hardware stores it, and given to the decoder. -/
def decodeTableWord (nbits w : Nat) : Option Instr :=
  let word : Word := BitVec.ofNat 16 (w % 2 ^ nbits)
  match decodeBytes [word.extractLsb' 8 8, word.extractLsb' 0 8] with
  | .instr i _ => some i
  | .unknownOpcode _ _ => none
  | .truncated => none

end Sys2Proof
end

