-- ==== Sys2Proof/Config.lean ====
section
/-! DEFINITION. What is fixed for this hardware (00_scope.md R5), the default of its one open parameter `FONT`
(R6, 10_state.md R23), and the free value behind the random byte (43_alu.md R133). -/

namespace Sys2Proof.Config

/-- `MEM_SIZE`: the addresses are 0x000..0xFFF (R5). -/
@[simp] def memSize : Nat := 4096

/-- `ROM_BASE`: where LOAD puts the program image (R5, 40_host_operations.md R92). -/
@[simp] def romBase : Nat := 0x200

/-- `ROM_MAX`: the longest program image, 4096 - 512 bytes (R5, R92). -/
@[simp] def romMax : Nat := 3584

/-- The customary font, glyphs 0 to F, five bytes each (10_state.md R23).
PRESUMED: the spec marks these bytes as general knowledge; log entry 3. -/
def defaultFontBytes : List Byte :=
  [0xF0, 0x90, 0x90, 0x90, 0xF0,  0x20, 0x60, 0x20, 0x20, 0x70]
  ++ [0xF0, 0x10, 0xF0, 0x80, 0xF0,  0xF0, 0x10, 0xF0, 0x10, 0xF0]
  ++ [0x90, 0x90, 0xF0, 0x10, 0x10,  0xF0, 0x80, 0xF0, 0x10, 0xF0]
  ++ [0xF0, 0x80, 0xF0, 0x90, 0xF0,  0xF0, 0x10, 0x20, 0x40, 0x40]
  ++ [0xF0, 0x90, 0xF0, 0x90, 0xF0,  0xF0, 0x90, 0xF0, 0x10, 0xF0]
  ++ [0xF0, 0x90, 0xF0, 0x90, 0x90,  0xE0, 0x90, 0xE0, 0x90, 0xE0]
  ++ [0xF0, 0x80, 0x80, 0x80, 0xF0,  0xE0, 0x90, 0x90, 0x90, 0xE0]
  ++ [0xF0, 0x80, 0xF0, 0x80, 0xF0,  0xF0, 0x80, 0xF0, 0x80, 0x80]

/-- The default value of the parameter `FONT` (R23, decision D14). Log entry 3. -/
def defaultFont : Vector Byte 80 := ⟨defaultFontBytes.toArray, rfl⟩

/-- The random byte of the n-th STEP whose `rnd` no pending event supplies: any value at all (R133, decision D15).
It has no body, so no proof can see a value of it. DESIGN CHOICE; log entry 2. -/
opaque freeRnd : Nat → Byte

end Sys2Proof.Config
end

