-- ==== Sys2Proof/Machine/State.lean ====
section
/-! DEFINITION. The state of the core as plain data: the tuple of 10_state.md section 1 and, beside it, the inputs, the
parameter and the outputs of the host's events (40_host_operations.md R90). -/

namespace Sys2Proof.Machine

/-- The fatal faults `F` of `raise F` (00_scope.md R8, 60_exceptions.md R170). On this hardware a fault is TAKEN: the
state goes on with `HALTED` and `CAUSE` written (R172, `State.raise` in Ops.lean), because the halted core still
accepts events (R173). No step answers `Outcome.fault`. Log entry 4. -/
inductive Fault where
  /-- Raised by call with `SP = 16` (42_control_transfer.md R113). Taken, not answered: safe. -/
  | stackOverflow
  /-- Raised by return with `SP = 0` (R110). Taken, not answered: safe. -/
  | stackUnderflow
  /-- Raised by a fetch or a data access above 0xFFF (20_memory.md R52 to R54). Taken, not answered: safe. -/
  | memFault
  deriving DecidableEq, Repr

/-- Why a step has no meaning. Nothing in this model answers it: every instruction has its meaning, and an unknown
opcode is defined behaviour (41_step_cycle.md R104). -/
inductive Refusal where
  /-- Raised by an arm of `exec` that has no meaning yet; safe. No arm is of this kind. -/
  | notModelled (mnemonic : String)
  deriving DecidableEq, Repr

/-- The report of a STEP event (60_exceptions.md R171). -/
inductive Report where
  /-- The core was halted or blocked; nothing was fetched. -/
  | idle
  /-- An instruction was executed without error. -/
  | ok
  /-- The word at `PC` matched no row of the opcode map. -/
  | unknownOpcode
  /-- A fatal fault was raised. -/
  | raised (f : Fault)
  deriving DecidableEq, Repr

/-- The status of a LOAD event (40_host_operations.md R92). -/
inductive LoadStatus where
  /-- The image was copied. -/
  | ok
  /-- The image is longer than 3584 bytes; nothing was written. -/
  | romTooLarge
  deriving DecidableEq, Repr

/-- `DISP`: 32 rows of 64 one-bit pixels; bit `x` of row `y` is `DISP[y][x]` (10_state.md R30). -/
abbrev Display := Vector (BitVec 64) 32

/-- `MEM` as the bytes that differ from the reset contents: (address, byte) pairs with addresses strictly rising
(`Memory.wf` in Ops.lean). Log entry 10. -/
abbrev Memory := List Host.Cell

/-- The events by which the host acts on the core (40_host_operations.md R90). -/
inductive Event where
  /-- `RESET` (R91). -/
  | reset
  /-- `LOAD(bytes)` (R92). -/
  | load (bytes : List Byte)
  /-- `KEY(code, pressed)` (R94). -/
  | key (code : KeyCode) (pressed : Bool)
  /-- `TAKE_DISPLAY` (R95). -/
  | takeDisplay
  /-- `STEP(rnd)` (41_step_cycle.md R100). -/
  | step (rnd : Byte)
  /-- `TICK` (46_keypad_timers.md R166). -/
  | tick
  deriving DecidableEq, Repr

/-- What an event gives back to the host (R90). -/
inductive Output where
  /-- The event has no output: RESET, KEY, TICK. -/
  | none
  /-- The report of a STEP. -/
  | report (r : Report)
  /-- The status of a LOAD. -/
  | load (status : LoadStatus)
  /-- The answer of a TAKE_DISPLAY: a copy of the pixels, or nothing. -/
  | display (snapshot : Option Display)
  deriving DecidableEq, Repr

/-- The machine. The first sixteen fields are the spec's state (10_state.md section 1); the last five are the model's
own (INVENTORY.md, State). -/
structure State where
  /-- `MEM` (R22). -/
  mem : Memory
  /-- `V[0..15]` (R20); `V[15]` is VF (R21). -/
  v : Vector Byte 16
  /-- `I`, the index register (R24). -/
  i : Word
  /-- `PC` (R25). -/
  pc : Word
  /-- `STACK[0..15]` (R27). -/
  stack : Vector Word 16
  /-- `SP`, the number of valid stack entries, 0..16 (R27). -/
  sp : Fin 17
  /-- `DT`, the delay timer (R28). -/
  dt : Byte
  /-- `ST`, the sound timer (R28). -/
  st : Byte
  /-- `KEY[0..15]`; true means the key is down (R29). -/
  key : Vector Bool 16
  /-- `DISP` (R30). -/
  disp : Display
  /-- `DIRTY` (R31). -/
  dirty : Bool
  /-- `BLOCKED` (R32). -/
  blocked : Bool
  /-- `KTARGET` (R32). -/
  ktarget : RegIdx
  /-- `HALTED` (R33). -/
  halted : Bool
  /-- `CAUSE` (R33, R170). -/
  cause : BitVec 3
  /-- `UNK` (R34). -/
  unk : Bool
  /-- The parameter `FONT` (00_scope.md R6); no event writes it. Log entry 3. -/
  font : Vector Byte 80
  /-- The input `rnd` of the STEP being executed (R100), any value. Log entry 2. -/
  rnd : Byte
  /-- How many free values were drawn for `rnd`. Log entry 2. -/
  draws : Nat
  /-- The host's events still to come, oldest first; when there is none, the next event is a STEP. Log entry 1. -/
  pending : List Event
  /-- The output of the latest event (R90, R171). Log entry 7. -/
  output : Output
  deriving DecidableEq, Repr

/-- The state after RESET for a given `FONT` (10_state.md R35, 40_host_operations.md R91). -/
def State.resetWith (font : Vector Byte 80) : State where
  mem := []
  v := Vector.replicate 16 0x00
  i := 0x0000
  pc := 0x0200
  stack := Vector.replicate 16 0x0000
  sp := 0
  dt := 0x00
  st := 0x00
  key := Vector.replicate 16 false
  disp := Vector.replicate 32 0
  dirty := true
  blocked := false
  ktarget := 0
  halted := false
  cause := 0
  unk := false
  font := font
  rnd := 0x00
  draws := 0
  pending := []
  output := .none

/-- The machine right after RESET, with the default `FONT` (R35; 95_test_vectors.md, "Reset state"). -/
def State.reset : State := State.resetWith Config.defaultFont

end Sys2Proof.Machine
end

