-- ==== Sys2Proof/Machine/Ops.lean ====
section
/-! DEFINITION. The shared operations over memory, registers, the stack, the program counter and the fault state. -/

namespace Sys2Proof.Machine

/-! ### Memory (20_memory.md) -/

/-- What an unlisted address reads as: the reset contents, `FONT` at 0x000..0x04F and 0x00 elsewhere (R35). Log entry 10. -/
def Memory.blank (font : Vector Byte 80) (a : Nat) : Byte := if h : a < 80 then font[a] else 0x00

/-- The byte listed at an address. -/
def Memory.lookup : Memory → Nat → Option Byte
  | [], _ => none
  | (b, v) :: rest, a => if b = a then some v else Memory.lookup rest a

/-- `MEM[a]`. -/
def Memory.read (font : Vector Byte 80) (m : Memory) (a : Nat) : Byte :=
  (Memory.lookup m a).getD (Memory.blank font a)

/-- Lists `v` at `a`, in address order. -/
def Memory.insert : Memory → Nat → Byte → Memory
  | [], a, v => [(a, v)]
  | (b, u) :: rest, a, v =>
    if a < b then (a, v) :: (b, u) :: rest
    else if a = b then (a, v) :: rest
    else (b, u) :: Memory.insert rest a v

/-- Takes what is listed at `a` out. -/
def Memory.erase : Memory → Nat → Memory
  | [], _ => []
  | (b, u) :: rest, a => if b = a then Memory.erase rest a else (b, u) :: Memory.erase rest a

/-- `MEM[a] <- v`, keeping the canonical form. -/
def Memory.write (font : Vector Byte 80) (m : Memory) (a : Nat) (v : Byte) : Memory :=
  if v = Memory.blank font a then Memory.erase m a else Memory.insert m a v

/-- The canonical form: addresses strictly rising and inside 0x000..0xFFF (R50), no entry equal to the reset contents. -/
def Memory.wf (font : Vector Byte 80) (m : Memory) : Bool :=
  decide ((m.map Prod.fst).Pairwise (· < ·)) &&
    m.all (fun c => decide (c.1 < 4096) && decide (c.2 ≠ Memory.blank font c.1))

/-- `MemRead(a, 1)`: the byte, or nothing where the spec says `raise MemFault` (R52). -/
def Memory.readByte (font : Vector Byte 80) (m : Memory) (a : Nat) : Option Byte :=
  if a ≤ 0xFFF then some (Memory.read font m a) else none

/-- `MemWrite(a, 1, v)`: the memory after it, or nothing where the spec says `raise MemFault` (R54). -/
def Memory.writeByte (font : Vector Byte 80) (m : Memory) (a : Nat) (v : Byte) : Option Memory :=
  if a ≤ 0xFFF then some (Memory.write font m a v) else none

/-- `n` byte reads at ascending addresses from `a`; nothing if any address is above 0xFFF (R54, R55). -/
def Memory.readBytes (font : Vector Byte 80) (m : Memory) : Nat → Nat → Option (List Byte)
  | _, 0 => some []
  | a, n + 1 =>
    match Memory.readByte font m a, Memory.readBytes font m (a + 1) n with
    | some b, some bs => some (b :: bs)
    | _, _ => none

/-- Byte writes at ascending addresses from `a`; nothing, so no byte written at all, if any address is above 0xFFF
(R54). -/
def Memory.writeBytes (font : Vector Byte 80) : Memory → Nat → List Byte → Option Memory
  | m, _, [] => some m
  | m, a, b :: bs =>
    match Memory.writeByte font m a b with
    | some m' => Memory.writeBytes font m' (a + 1) bs
    | none => none

/-- The checked byte read of the state's memory (R52). -/
def State.memRead (s : State) (a : Nat) : Option Byte := Memory.readByte s.font s.mem a

/-- `MemRead(PC, 2)`: the big-endian word at `PC`, or nothing where fetch raises `MemFault` (R53, 41_step_cycle.md
R102). -/
def State.fetch (s : State) : Option Word :=
  match s.memRead s.pc.toNat, s.memRead (s.pc.toNat + 1) with
  | some hi, some lo => some (wordOfBytes hi lo)
  | _, _ => none

/-! ### Registers (10_state.md R20) -/

/-- `V[x] <- b`. -/
def State.setV (x : RegIdx) (b : Byte) (s : State) : State := { s with v := s.v.set x b }

/-- `V[k], V[k+1], … <- bytes` in that order. -/
def setRegsFrom (k : Nat) : List Byte → Vector Byte 16 → Vector Byte 16
  | [], v => v
  | b :: bs, v => setRegsFrom (k + 1) bs (v.setIfInBounds k b)

/-- The contents of `V[0..x]`, in register order. -/
def State.regsThrough (x : RegIdx) (s : State) : List Byte := s.v.toList.take (x.val + 1)

/-! ### Program counter (10_state.md R25, 41_step_cycle.md R105) -/

/-- `PC <- (PC + 2) mod 65536`. -/
def State.advance (s : State) : State := { s with pc := s.pc + 2 }

/-- A skip: `PC + 4` if the condition holds, else `PC + 2`. -/
def State.skipIf (c : Bool) (s : State) : State := { s with pc := if c then s.pc + 4 else s.pc + 2 }

/-! ### Call stack (10_state.md R27) -/

/-- `STACK[SP] <- a; SP <- SP + 1`; nothing when `SP = 16`. -/
def State.push (a : Word) (s : State) : Option State :=
  if h : s.sp.val < 16 then
    some { s with stack := s.stack.set s.sp.val a, sp := ⟨s.sp.val + 1, by omega⟩ }
  else none

/-- `SP <- SP - 1` with the entry uncovered; nothing when `SP = 0`. -/
def State.pop (s : State) : Option (Word × State) :=
  if h : 0 < s.sp.val then
    some (s.stack[s.sp.val - 1]'(by omega), { s with sp := ⟨s.sp.val - 1, by omega⟩ })
  else none

/-! ### Faults and reports (60_exceptions.md) -/

/-- The numeric code of a fault (R170). -/
def Fault.code : Fault → BitVec 3
  | .stackOverflow => 1
  | .stackUnderflow => 2
  | .memFault => 4

/-- The 3-bit form of a report (R171). -/
def Report.code : Report → BitVec 3
  | .idle => 0
  | .ok => 7
  | .unknownOpcode => 3
  | .raised f => f.code

/-- The numeric code of the error a LOAD status names (R170, code 5); `Ok` names no error. `CAUSE` never holds it. -/
def LoadStatus.errorCode : LoadStatus → Option (BitVec 3)
  | .ok => none
  | .romTooLarge => some 5

/-- `raise F`: `HALTED <- 1; CAUSE <- code(F)`, the STEP reports `F`, and nothing else changes (R172). -/
def State.raise (f : Fault) (s : State) : State :=
  { s with halted := true, cause := f.code, output := .report (.raised f) }

/-- An unknown opcode: `PC <- (PC + 2) mod 65536; UNK <- 1`, reported (41_step_cycle.md R104, R176). -/
def State.unknownOpcode (s : State) : State :=
  { s with pc := s.pc + 2, unk := true, output := .report .unknownOpcode }

/-- A STEP that finds the core halted or blocked: only the report (R101). -/
def State.idle (s : State) : State := { s with output := .report .idle }

/-- The start of an executing STEP: its `rnd` is presented, and its report is `Ok` unless a fault overwrites it (R100,
R105, R107). -/
def State.beginStep (rnd : Byte) (s : State) : State := { s with rnd := rnd, output := .report .ok }

/-! ### The memory instructions' shared shape (44_index_memory.md R140 (b), (c)) -/

/-- Stores `bytes` from address `a` on and goes on with `k`, or raises `MemFault` with nothing written. -/
def State.storing (a : Nat) (bytes : List Byte) (k : State → State) (s : State) : State :=
  match Memory.writeBytes s.font s.mem a bytes with
  | some m => k { s with mem := m }
  | none => s.raise .memFault

/-- Reads `n` bytes from address `a` on and goes on with `k`, or raises `MemFault`. -/
def State.loading (a n : Nat) (k : List Byte → State → State) (s : State) : State :=
  match Memory.readBytes s.font s.mem a n with
  | some bytes => k bytes s
  | none => s.raise .memFault

/-- The level the host may observe of the sound timer, `ST != 0` (10_state.md R28, decision D18). -/
def State.soundOn (s : State) : Bool := s.st != 0

end Sys2Proof.Machine
end

