-- ==== Sys2Proof/Machine/Operands.lean ====
section
/-! DEFINITION. What the instructions compute from their operands: the key index, the decimal digits, the addresses and
the pixels of a sprite. Immediates are used unextended (30_encoding.md R73); registers are read from the state before
any write (00_scope.md R9). -/

namespace Sys2Proof.Machine

/-- The key a register value selects: its low four bits (46_keypad_timers.md R167, decision D10). -/
def keyIndex (b : Byte) : KeyCode := (b.extractLsb' 0 4).toFin

/-- The hundreds, tens and units digits of a byte, one per byte (44_index_memory.md R143). -/
def bcdDigits (b : Byte) : List Byte :=
  [BitVec.ofNat 8 (b.toNat / 100), BitVec.ofNat 8 (b.toNat / 10 % 10), BitVec.ofNat 8 (b.toNat % 10)]

/-- The address of a glyph, `vx * 5`, the whole byte multiplied (R146). -/
def glyphAddress (b : Byte) : Word := BitVec.ofNat 16 (b.toNat * 5)

/-- The target of jump-with-offset, `nnn + v0`, not masked to 12 bits (42_control_transfer.md R112). -/
def offsetTarget (nnn : Addr) (v0 : Byte) : Word := BitVec.ofNat 16 (nnn.toNat + v0.toNat)

/-! ### The blit (45_display.md R152) -/

/-- `DISP[y][x]`. -/
def Display.pixel (d : Display) (y : Fin 32) (x : Fin 64) : Bool := d[y].getLsbD x.val

/-- `DISP[y][x] <- DISP[y][x] ^ 1`. -/
def Display.flip (d : Display) (y : Fin 32) (x : Fin 64) : Display := d.set y (d[y] ^^^ BitVec.twoPow 64 x.val)

/-- Bit `k` of the 2048-bit snapshot the host receives: bit `y*64 + x` is `DISP[y][x]` (40_host_operations.md R95,
decision D17). -/
def Display.snapshotBit (d : Display) (k : Fin 2048) : Bool := d.pixel ⟨k.val / 64, by omega⟩ ⟨k.val % 64, by omega⟩

/-- The column of a sprite pixel, `(vx + col) mod 64` (decision D3: every pixel wraps). -/
def spriteColumn (vx : Byte) (col : Nat) : Fin 64 := Fin.ofNat 64 (vx.toNat + col)

/-- The row of a sprite pixel, `(vy + row) mod 32`. -/
def spriteRow (vy : Byte) (row : Nat) : Fin 32 := Fin.ofNat 32 (vy.toNat + row)

/-- What a draw has done so far. -/
structure Blit where
  /-- The display. -/
  disp : Display
  /-- A set pixel was flipped to clear. -/
  collision : Bool
  /-- A pixel was flipped. -/
  changed : Bool
  deriving DecidableEq, Repr

/-- One set source bit: note a collision, flip the pixel. -/
def Blit.dot (y : Fin 32) (x : Fin 64) (b : Blit) : Blit :=
  { disp := b.disp.flip y x, collision := b.collision || b.disp.pixel y x, changed := true }

/-- The columns of one sprite row from `col` on, `k` of them, most significant bit first. -/
def Blit.columns (vx : Byte) (y : Fin 32) (bits : Byte) : Nat → Nat → Blit → Blit
  | _, 0, b => b
  | col, k + 1, b =>
    Blit.columns vx y bits (col + 1) k (if bits.getLsbD (7 - col) then b.dot y (spriteColumn vx col) else b)

/-- The rows of a sprite from number `row` on. -/
def Blit.rows (vx vy : Byte) : Nat → List Byte → Blit → Blit
  | _, [], b => b
  | row, bits :: rest, b => Blit.rows vx vy (row + 1) rest (b.columns vx (spriteRow vy row) bits 0 8)

/-- Draws the sprite rows `bytes` at `(vx, vy)` on a display. -/
def blit (vx vy : Byte) (bytes : List Byte) (d : Display) : Blit :=
  Blit.rows vx vy 0 bytes { disp := d, collision := false, changed := false }

end Sys2Proof.Machine
end

