-- ==== Sys2Proof/Machine/Flags.lean ====
section
/-! DEFINITION. The flag computations, and the one order in which flag and result are written (10_state.md R21,
43_alu.md R120). -/

namespace Sys2Proof.Machine

/-- A flag as the byte VF receives. -/
def flagByte (c : Bool) : Byte := if c then 1 else 0

/-- add: 1 if the sum exceeds 255 (R127). -/
def carryOut (a b : Byte) : Bool := decide (a.toNat + b.toNat > 255)

/-- sub and sub-reverse: 1 if the minuend is at least the subtrahend, "no borrow" (R128, R130). -/
def noBorrow (minuend subtrahend : Byte) : Bool := decide (minuend.toNat ≥ subtrahend.toNat)

/-- shift-right: the least significant bit before the shift (R129). -/
def shiftedOutRight (b : Byte) : Bool := b.getLsbD 0

/-- shift-left: the most significant bit before the shift (R131). -/
def shiftedOutLeft (b : Byte) : Bool := b.getLsbD 7

/-- `V[15] <- flag; V[x] <- result`: when `x` is 15 the result, written last, is what stays (00_scope.md R9,
decision D7). -/
def State.setFlagThen (flag : Bool) (x : RegIdx) (result : Byte) (s : State) : State :=
  (s.setV VF (flagByte flag)).setV x result

end Sys2Proof.Machine
end

