-- ==== Sys2Proof/Machine/Alu.lean ====
section
/-! DEFINITION. The register and ALU instructions (43_alu.md): none faults, each ends with `PC + 2` (R120). -/

namespace Sys2Proof.Machine

/-- set-immediate (R121). -/
def execSetImmediate (x : RegIdx) (nn : Byte) (s : State) : Host.Outcome State Fault Refusal :=
  .next (s.setV x nn).advance

/-- add-immediate (R122): modulo 256, the carry is discarded. -/
def execAddImmediate (x : RegIdx) (nn : Byte) (s : State) : Host.Outcome State Fault Refusal :=
  .next (s.setV x (s.v[x] + nn)).advance

/-- move (R123). -/
def execMove (x y : RegIdx) (s : State) : Host.Outcome State Fault Refusal :=
  .next (s.setV x s.v[y]).advance

/-- or (R124): VF is not written. -/
def execBitOr (x y : RegIdx) (s : State) : Host.Outcome State Fault Refusal :=
  .next (s.setV x (s.v[x] ||| s.v[y])).advance

/-- and (R125): VF is not written. -/
def execBitAnd (x y : RegIdx) (s : State) : Host.Outcome State Fault Refusal :=
  .next (s.setV x (s.v[x] &&& s.v[y])).advance

/-- xor (R126): VF is not written. -/
def execBitXor (x y : RegIdx) (s : State) : Host.Outcome State Fault Refusal :=
  .next (s.setV x (s.v[x] ^^^ s.v[y])).advance

/-- add (R127): VF takes the carry out. -/
def execAdd (x y : RegIdx) (s : State) : Host.Outcome State Fault Refusal :=
  .next (s.setFlagThen (carryOut s.v[x] s.v[y]) x (s.v[x] + s.v[y])).advance

/-- sub (R128): VF takes "no borrow". -/
def execSub (x y : RegIdx) (s : State) : Host.Outcome State Fault Refusal :=
  .next (s.setFlagThen (noBorrow s.v[x] s.v[y]) x (s.v[x] - s.v[y])).advance

/-- shift-right (R129): logical, in place, the bit shifted out goes to VF. -/
def execShiftRight (x : RegIdx) (s : State) : Host.Outcome State Fault Refusal :=
  .next (s.setFlagThen (shiftedOutRight s.v[x]) x (s.v[x] >>> 1)).advance

/-- sub-reverse (R130): `vy - vx`. -/
def execSubReverse (x y : RegIdx) (s : State) : Host.Outcome State Fault Refusal :=
  .next (s.setFlagThen (noBorrow s.v[y] s.v[x]) x (s.v[y] - s.v[x])).advance

/-- shift-left (R131): in place, modulo 256, the bit shifted out goes to VF. -/
def execShiftLeft (x : RegIdx) (s : State) : Host.Outcome State Fault Refusal :=
  .next (s.setFlagThen (shiftedOutLeft s.v[x]) x (s.v[x] <<< 1)).advance

/-- random-and (R133): the random byte is the `rnd` input of this STEP, any value. -/
def execRandomAnd (x : RegIdx) (nn : Byte) (s : State) : Host.Outcome State Fault Refusal :=
  .next (s.setV x (s.rnd &&& nn)).advance

end Sys2Proof.Machine
end

