-- ==== Sys2Proof/Machine/ControlTransfer.lean ====
section
/-! DEFINITION. return, jump, jump-with-offset, call and the four register and immediate skips
(42_control_transfer.md). `PC` on entry is the address of the instruction. -/

namespace Sys2Proof.Machine

/-- return (R110): pops into `PC`, with no advance; `StackUnderflow` when `SP = 0`. -/
def execReturn (s : State) : Host.Outcome State Fault Refusal :=
  match s.pop with
  | some (target, s') => .next { s' with pc := target }
  | none => .next (s.raise .stackUnderflow)

/-- jump (R111). -/
def execJump (nnn : Addr) (s : State) : Host.Outcome State Fault Refusal :=
  .next { s with pc := nnn.setWidth 16 }

/-- jump-with-offset (R112): the offset is always `V[0]`. -/
def execJumpWithOffset (nnn : Addr) (s : State) : Host.Outcome State Fault Refusal :=
  .next { s with pc := offsetTarget nnn s.v[0] }

/-- call (R113): pushes `PC + 2`; `StackOverflow` when `SP = 16`. -/
def execCall (nnn : Addr) (s : State) : Host.Outcome State Fault Refusal :=
  match s.push (s.pc + 2) with
  | some s' => .next { s' with pc := nnn.setWidth 16 }
  | none => .next (s.raise .stackOverflow)

/-- skip-if-equal-immediate (R114). -/
def execSkipIfEqualImmediate (x : RegIdx) (nn : Byte) (s : State) : Host.Outcome State Fault Refusal :=
  .next (s.skipIf (s.v[x] == nn))

/-- skip-if-not-equal-immediate (R115). -/
def execSkipIfNotEqualImmediate (x : RegIdx) (nn : Byte) (s : State) : Host.Outcome State Fault Refusal :=
  .next (s.skipIf (s.v[x] != nn))

/-- skip-if-registers-equal (R116). -/
def execSkipIfRegistersEqual (x y : RegIdx) (s : State) : Host.Outcome State Fault Refusal :=
  .next (s.skipIf (s.v[x] == s.v[y]))

/-- skip-if-registers-not-equal (R117). -/
def execSkipIfRegistersNotEqual (x y : RegIdx) (s : State) : Host.Outcome State Fault Refusal :=
  .next (s.skipIf (s.v[x] != s.v[y]))

end Sys2Proof.Machine
end

