-- ==== Sys2Proof/Machine/DisplayOps.lean ====
section
/-! DEFINITION. clear-screen and draw-sprite (45_display.md). -/

namespace Sys2Proof.Machine

/-- clear-screen (R151): `DIRTY` is set unconditionally. -/
def execClearScreen (s : State) : Host.Outcome State Fault Refusal :=
  .next { s with disp := Vector.replicate 32 0, dirty := true }.advance

/-- The writes of a draw that does not fault: the display, `DIRTY` if a pixel changed, VF last (R152). -/
def State.drawn (b : Blit) (s : State) : State :=
  State.setV VF (flagByte b.collision) { s with disp := b.disp, dirty := s.dirty || b.changed }

/-- draw-sprite (R152): `n` rows read at `I`, drawn at `(V[x], V[y])` as they were before any write; with `n = 0` no
address is checked (R154 (a)). -/
def execDrawSprite (x y : RegIdx) (n : Nat) (s : State) : Host.Outcome State Fault Refusal :=
  .next (s.loading s.i.toNat n fun bytes t => (t.drawn (blit t.v[x] t.v[y] bytes t.disp)).advance)

end Sys2Proof.Machine
end

