-- ==== Sys2Proof/Machine/IndexMemory.lean ====
section
/-! DEFINITION. The index register and memory instructions (44_index_memory.md). Addresses are `I + k` on unbounded
integers, checked before any write (R140). -/

namespace Sys2Proof.Machine

/-- set-index (R141). -/
def execSetIndex (nnn : Addr) (s : State) : Host.Outcome State Fault Refusal :=
  .next { s with i := nnn.setWidth 16 }.advance

/-- add-to-index (R142): modulo 65536, no flag. -/
def execAddToIndex (x : RegIdx) (s : State) : Host.Outcome State Fault Refusal :=
  .next { s with i := s.i + s.v[x].setWidth 16 }.advance

/-- font-char-address (R146). -/
def execFontCharAddress (x : RegIdx) (s : State) : Host.Outcome State Fault Refusal :=
  .next { s with i := glyphAddress s.v[x] }.advance

/-- store-bcd (R143): three bytes at `I`; `I` is not changed. -/
def execStoreBcd (x : RegIdx) (s : State) : Host.Outcome State Fault Refusal :=
  .next (s.storing s.i.toNat (bcdDigits s.v[x]) State.advance)

/-- `I <- (I + x + 1) mod 65536`, the block advance of dump and load (R144, R145). -/
def State.bumpIndex (x : RegIdx) (s : State) : State := { s with i := s.i + BitVec.ofNat 16 (x.val + 1) }

/-- dump-registers (R144): `V[0..x]` to memory at `I`, then `I` advances by `x + 1`. -/
def execDumpRegisters (x : RegIdx) (s : State) : Host.Outcome State Fault Refusal :=
  .next (s.storing s.i.toNat (s.regsThrough x) fun t => (t.bumpIndex x).advance)

/-- load-registers (R145): memory at `I` to `V[0..x]`, then `I` advances by `x + 1`. -/
def execLoadRegisters (x : RegIdx) (s : State) : Host.Outcome State Fault Refusal :=
  .next (s.loading s.i.toNat (x.val + 1) fun bytes t =>
    ({ t with v := setRegsFrom 0 bytes t.v }.bumpIndex x).advance)

end Sys2Proof.Machine
end

