-- ==== Sys2Proof/Machine/KeypadTimers.lean ====
section
/-! DEFINITION. The keypad and timer instructions (46_keypad_timers.md); TICK is an event (Events.lean). -/

namespace Sys2Proof.Machine

/-- skip-if-key-pressed (R160, key index R167). -/
def execSkipIfKeyPressed (x : RegIdx) (s : State) : Host.Outcome State Fault Refusal :=
  .next (s.skipIf s.key[keyIndex s.v[x]])

/-- skip-if-key-not-pressed (R161). -/
def execSkipIfKeyNotPressed (x : RegIdx) (s : State) : Host.Outcome State Fault Refusal :=
  .next (s.skipIf (!s.key[keyIndex s.v[x]]))

/-- get-delay (R163). -/
def execGetDelay (x : RegIdx) (s : State) : Host.Outcome State Fault Refusal :=
  .next (s.setV x s.dt).advance

/-- wait-key (R162): `PC` advances at once; `V[x]` is written by the KEY event that ends the wait. -/
def execWaitKey (x : RegIdx) (s : State) : Host.Outcome State Fault Refusal :=
  .next { s with blocked := true, ktarget := x }.advance

/-- set-delay (R164). -/
def execSetDelay (x : RegIdx) (s : State) : Host.Outcome State Fault Refusal :=
  .next { s with dt := s.v[x] }.advance

/-- set-sound (R165). -/
def execSetSound (x : RegIdx) (s : State) : Host.Outcome State Fault Refusal :=
  .next { s with st := s.v[x] }.advance

end Sys2Proof.Machine
end

