-- ==== Sys2Proof/Machine/Dispatch.lean ====
section
/-! DEFINITION. One arm per instruction (41_step_cycle.md R104, R105). -/

namespace Sys2Proof.Machine

/-- The effect of an instruction that a STEP has fetched and decoded. -/
def exec (i : Instr) (s : State) : Host.Outcome State Fault Refusal :=
  match i with
  | .clearScreen => Sys2Proof.Machine.execClearScreen s
  | .ret => Sys2Proof.Machine.execReturn s
  | .jump nnn => Sys2Proof.Machine.execJump nnn s
  | .call nnn => Sys2Proof.Machine.execCall nnn s
  | .skipIfEqualImmediate x nn => Sys2Proof.Machine.execSkipIfEqualImmediate x nn s
  | .skipIfNotEqualImmediate x nn => Sys2Proof.Machine.execSkipIfNotEqualImmediate x nn s
  | .skipIfRegistersEqual x y => Sys2Proof.Machine.execSkipIfRegistersEqual x y s
  | .setImmediate x nn => Sys2Proof.Machine.execSetImmediate x nn s
  | .addImmediate x nn => Sys2Proof.Machine.execAddImmediate x nn s
  | .move x y => Sys2Proof.Machine.execMove x y s
  | .bitOr x y => Sys2Proof.Machine.execBitOr x y s
  | .bitAnd x y => Sys2Proof.Machine.execBitAnd x y s
  | .bitXor x y => Sys2Proof.Machine.execBitXor x y s
  | .add x y => Sys2Proof.Machine.execAdd x y s
  | .sub x y => Sys2Proof.Machine.execSub x y s
  | .shiftRight x => Sys2Proof.Machine.execShiftRight x s
  | .subReverse x y => Sys2Proof.Machine.execSubReverse x y s
  | .shiftLeft x => Sys2Proof.Machine.execShiftLeft x s
  | .skipIfRegistersNotEqual x y => Sys2Proof.Machine.execSkipIfRegistersNotEqual x y s
  | .setIndex nnn => Sys2Proof.Machine.execSetIndex nnn s
  | .jumpWithOffset nnn => Sys2Proof.Machine.execJumpWithOffset nnn s
  | .randomAnd x nn => Sys2Proof.Machine.execRandomAnd x nn s
  | .drawSprite x y n => Sys2Proof.Machine.execDrawSprite x y n s
  | .skipIfKeyPressed x => Sys2Proof.Machine.execSkipIfKeyPressed x s
  | .skipIfKeyNotPressed x => Sys2Proof.Machine.execSkipIfKeyNotPressed x s
  | .getDelay x => Sys2Proof.Machine.execGetDelay x s
  | .waitKey x => Sys2Proof.Machine.execWaitKey x s
  | .setDelay x => Sys2Proof.Machine.execSetDelay x s
  | .setSound x => Sys2Proof.Machine.execSetSound x s
  | .addToIndex x => Sys2Proof.Machine.execAddToIndex x s
  | .fontCharAddress x => Sys2Proof.Machine.execFontCharAddress x s
  | .storeBcd x => Sys2Proof.Machine.execStoreBcd x s
  | .dumpRegisters x => Sys2Proof.Machine.execDumpRegisters x s
  | .loadRegisters x => Sys2Proof.Machine.execLoadRegisters x s

end Sys2Proof.Machine
end

