-- ==== Sys2Proof/Machine/Events.lean ====
section
/-! DEFINITION. The six events by which the core changes state (40_host_operations.md R90), each atomic, each with its
output in `State.output`. -/

namespace Sys2Proof.Machine

/-- RESET (R91): every piece of state takes its reset value; the parameter, the inputs and the events still to come are
the host's and stay (log entry 15). -/
def State.onReset (s : State) : State :=
  { State.resetWith s.font with rnd := s.rnd, draws := s.draws, pending := s.pending }

/-- The memory after byte writes that need no check, from address `a` on. -/
def Memory.copyIn (font : Vector Byte 80) : Memory → Nat → List Byte → Memory
  | m, _, [] => m
  | m, a, b :: bs => Memory.copyIn font (Memory.write font m a b) (a + 1) bs

/-- LOAD (R92): copies the image to 0x200, or rejects one longer than 3584 bytes with no state change. -/
def State.onLoad (bytes : List Byte) (s : State) : State :=
  if bytes.length > Config.romMax then { s with output := .load .romTooLarge }
  else { s with mem := Memory.copyIn s.font s.mem Config.romBase bytes, output := .load .ok }

/-- KEY (R94): the flag follows the event; a key-down while blocked writes the code to `V[KTARGET]` and unblocks. -/
def State.onKey (code : KeyCode) (pressed : Bool) (s : State) : State :=
  let t : State := { s with key := s.key.set code pressed, output := .none }
  if pressed && t.blocked then { t.setV t.ktarget (BitVec.ofNat 8 code.val) with blocked := false } else t

/-- TAKE_DISPLAY (R95): a copy of the pixels if dirty, which clears `DIRTY`; else nothing. -/
def State.onTakeDisplay (s : State) : State :=
  if s.dirty then { s with dirty := false, output := .display (some s.disp) }
  else { s with output := .display none }

/-- A timer's decrement, clamped at 0 (10_state.md R28). -/
def countDown (b : Byte) : Byte := if b = 0 then 0 else b - 1

/-- TICK (46_keypad_timers.md R166): both timers count down, in every state of the core. -/
def State.onTick (s : State) : State :=
  { s with dt := countDown s.dt, st := countDown s.st, output := .none }

/-- STEP (41_step_cycle.md R101 to R107): gate, fetch, decode, dispatch, execute; the first phase that ends the STEP
wins. -/
def stepEvent (rnd : Byte) (s : State) : Host.Outcome State Fault Refusal :=
  if s.halted || s.blocked then .next s.idle
  else
    match s.fetch with
    | none => .next (s.raise .memFault)
    | some w =>
      match decodeWord w with
      | some i => exec i (s.beginStep rnd)
      | none => .next s.unknownOpcode

/-- One event. -/
def applyEvent (e : Event) (s : State) : Host.Outcome State Fault Refusal :=
  match e with
  | .reset => .next s.onReset
  | .load bytes => .next (s.onLoad bytes)
  | .key code pressed => .next (s.onKey code pressed)
  | .takeDisplay => .next s.onTakeDisplay
  | .step rnd => stepEvent rnd s
  | .tick => .next s.onTick

/-- The next event: the oldest pending one, or a STEP with a free random byte (log entries 1 and 2). -/
def State.nextEvent (s : State) : Event :=
  match s.pending with
  | [] => .step (Config.freeRnd s.draws)
  | e :: _ => e

/-- The state with the next event taken off the host's list, or its free value counted. -/
def State.takeEvent (s : State) : State :=
  match s.pending with
  | [] => { s with draws := s.draws + 1 }
  | _ :: es => { s with pending := es }

/-- Stores the two bytes of a word at `PC` and `PC + 1`, high byte first, as far as they lie in memory (20_memory.md
R53, R55). -/
def State.placeWord (w : Word) (s : State) : State :=
  match Memory.writeBytes s.font s.mem s.pc.toNat [w.extractLsb' 8 8, w.extractLsb' 0 8] with
  | some m => { s with mem := m }
  | none => s

/-- The state with the STEP gate open and no host event before the next STEP (R101; log entry 16). -/
def State.readyToStep (s : State) : State := { s with halted := false, blocked := false, pending := [] }

end Sys2Proof.Machine
end

