-- ==== Sys2Proof/Machine/Step.lean ====
section
/-! DEFINITION. One step of the machine: the host's next event (40_host_operations.md R90). -/

namespace Sys2Proof.Machine

/-- Takes the next event and applies it, atomically (00_scope.md R10). With no event pending it is a STEP. -/
def step (s : State) : Host.Outcome State Fault Refusal := applyEvent s.nextEvent s.takeEvent

/-- `s` with the instruction whose bits are `w` (the bits above `nbits` zero) stored where the next STEP fetches, and
the very next event that STEP. Log entry 16. -/
def State.withFetchWord (s : State) (nbits w : Nat) : State :=
  (s.placeWord (BitVec.ofNat 16 (w % 2 ^ nbits))).readyToStep

end Sys2Proof.Machine
end

