-- ==== Sys2Proof/Machine/Signals.lean ====
section
/-! DEFINITION. The signal-level form of the interface (40_host_operations.md R96, R97): one clock cycle with its
strobes, acting as the events would in the fixed order. `step` does not use it; log entry 11. -/

namespace Sys2Proof.Machine

/-- The input signals of one cycle (R96); an absent option is a strobe held low. -/
structure Strobes where
  /-- `rst`. -/
  rst : Bool
  /-- `load_stb` with `load_addr`, `load_data`. -/
  load : Option (Addr × Byte)
  /-- `key_stb` with `key_code`, `key_pressed`. -/
  key : Option (KeyCode × Bool)
  /-- `tick_stb`. -/
  tick : Bool
  /-- `step_stb` with `rnd`. -/
  step : Option Byte
  /-- `take_stb`. -/
  take : Bool
  deriving DecidableEq, Repr

/-- The output signals of one cycle (R96). -/
structure Pins where
  /-- `disp`, 2048 bits. -/
  disp : Display
  /-- `dirty`. -/
  dirty : Bool
  /-- `report`: the code of this cycle's STEP, 0 in a cycle without one. -/
  report : BitVec 3
  /-- `halted`. -/
  halted : Bool
  /-- `cause`. -/
  cause : BitVec 3
  /-- `unk`. -/
  unk : Bool
  /-- `sound_on`, `ST != 0`. -/
  soundOn : Bool
  deriving DecidableEq, Repr

/-- The LOAD strobe: one cycle writes one ROM byte, `MEM[load_addr] <- load_data`. -/
def State.onLoadByte (a : Addr) (b : Byte) (s : State) : State :=
  { s with mem := Memory.write s.font s.mem a.toNat b }

/-- The strobes of a cycle before STEP: LOAD byte, KEY, TICK (R97). -/
def State.strobeInputs (σ : Strobes) (s : State) : State :=
  let s := match σ.load with | some (a, b) => s.onLoadByte a b | none => s
  let s := match σ.key with | some (c, p) => s.onKey c p | none => s
  if σ.tick then s.onTick else s

/-- The output signals a state shows; `report` is the STEP's of this cycle. -/
def State.pins (report : BitVec 3) (s : State) : Pins :=
  { disp := s.disp, dirty := s.dirty, report := report, halted := s.halted, cause := s.cause, unk := s.unk,
    soundOn := s.soundOn }

/-- The 3-bit report in an output, 0 where it is no report (R96, R171). -/
def Output.reportCode : Output → BitVec 3
  | .report r => r.code
  | .none | .load _ | .display _ => 0

/-- The display read-out at the end of a cycle: it clears `DIRTY` if it is high with `take_stb` (R95, R96). -/
def State.strobeTake (take : Bool) (s : State) : State := if take then s.onTakeDisplay else s

/-- One rising edge: the state after it and the signals the host sees in the cycle. `rst` suppresses every other
strobe; otherwise the order is LOAD byte, KEY, TICK, STEP, TAKE_DISPLAY (R97).
DESIGN CHOICE: in a cycle with `rst` high the pins show the state after RESET (so `dirty` is 1); R96 does not say which
they show. Log entry 17. -/
def cycle (σ : Strobes) (s : State) : Host.Outcome (State × Pins) Fault Refusal :=
  if σ.rst then .next (s.onReset, s.onReset.pins 0)
  else
    match σ.step with
    | none => .next ((s.strobeInputs σ).strobeTake σ.take, (s.strobeInputs σ).pins 0)
    | some rnd =>
      match stepEvent rnd (s.strobeInputs σ) with
      | .next t => .next (t.strobeTake σ.take, t.pins t.output.reportCode)
      | .fault r => .fault r
      | .refused r => .refused r

end Sys2Proof.Machine
end

