-- ==== Sys2Proof/Safety.lean ====
section
/-! DEFINITION. The terms claims are stated in: the invariant of the machine, when a run has failed, waits or is
finished, and what each instruction may write. -/

namespace Sys2Proof.Machine

/-- `CAUSE` and `HALTED` agree: 0 while running, a fatal code while halted (10_state.md R33, 60_exceptions.md R170). -/
def State.causeOk (s : State) : Bool :=
  if s.halted then decide (s.cause = 1 ∨ s.cause = 2 ∨ s.cause = 4) else decide (s.cause = 0)

/-- The invariant every event keeps: memory in its canonical form, `BLOCKED` and `HALTED` never both 1 (R33), `CAUSE`
in agreement with `HALTED`. -/
def State.Inv (s : State) : Prop :=
  Memory.wf s.font s.mem = true ∧ ¬ (s.blocked = true ∧ s.halted = true) ∧ s.causeOk = true

/-- A fatal fault has occurred since the last RESET: never a successful end of a run (60_exceptions.md R173). -/
def State.failed (s : State) : Prop := s.halted = true

/-- The core waits for a key-down event (70_reset_and_hazards.md R196 (b)). -/
def State.waiting (s : State) : Prop := s.blocked = true

/-- The convention for the end of a program: running, and the word at `PC` a jump to `PC` itself (R197). The core does
not detect it. -/
def State.finished (s : State) : Prop :=
  s.halted = false ∧ s.blocked = false ∧
    ∃ w nnn, s.fetch = some w ∧ decodeWord w = some (.jump nnn) ∧ nnn.setWidth 16 = s.pc

/-- The pixel is the wrapped image of a set bit of the `n`-row sprite at `I`, drawn at `(V[x], V[y])` (45_display.md
R152): row `row`, column `col` lands at `((V[x] + col) mod 64, (V[y] + row) mod 32)`, bit 7 of a byte leftmost. -/
def State.spriteCovers (s : State) (x y : RegIdx) (n : Nat) (py : Fin 32) (px : Fin 64) : Prop :=
  ∃ row col : Nat, ∃ b : Byte, row < n ∧ col < 8 ∧ s.memRead (s.i.toNat + row) = some b ∧
    b.getLsbD (7 - col) = true ∧ px.val = (s.v[x].toNat + col) % 64 ∧ py.val = (s.v[y].toNat + row) % 32

/-- The event is a RESET. -/
def Event.isReset : Event → Bool
  | .reset => true
  | .load _ | .key _ _ | .takeDisplay | .step _ | .tick => false

/-- The event is a key-down. -/
def Event.isKeyDown : Event → Bool
  | .key _ pressed => pressed
  | .reset | .load _ | .takeDisplay | .step _ | .tick => false

end Sys2Proof.Machine

namespace Sys2Proof

/-- The instruction writes VF as a flag (10_state.md R21). -/
def Instr.writesFlag : Instr → Bool
  | .add _ _ | .sub _ _ | .shiftRight _ | .subReverse _ _ | .shiftLeft _ | .drawSprite _ _ _ => true
  | .clearScreen | .ret | .jump _ | .call _ | .skipIfEqualImmediate _ _ | .skipIfNotEqualImmediate _ _ => false
  | .skipIfRegistersEqual _ _ | .skipIfRegistersNotEqual _ _ | .setImmediate _ _ | .addImmediate _ _ => false
  | .move _ _ | .bitOr _ _ | .bitAnd _ _ | .bitXor _ _ | .setIndex _ | .jumpWithOffset _ | .randomAnd _ _ => false
  | .skipIfKeyPressed _ | .skipIfKeyNotPressed _ | .getDelay _ | .waitKey _ | .setDelay _ | .setSound _ => false
  | .addToIndex _ | .fontCharAddress _ | .storeBcd _ | .dumpRegisters _ | .loadRegisters _ => false

/-- The register is a destination the instruction names: its X operand, or one of V0..Vx for load-registers. -/
def Instr.names (r : RegIdx) : Instr → Bool
  | .setImmediate x _ | .addImmediate x _ | .randomAnd x _ | .getDelay x => r == x
  | .move x _ | .bitOr x _ | .bitAnd x _ | .bitXor x _ => r == x
  | .add x _ | .sub x _ | .subReverse x _ | .shiftRight x | .shiftLeft x => r == x
  | .loadRegisters x => decide (r ≤ x)
  | .clearScreen | .ret | .jump _ | .call _ | .skipIfEqualImmediate _ _ | .skipIfNotEqualImmediate _ _ => false
  | .skipIfRegistersEqual _ _ | .skipIfRegistersNotEqual _ _ | .setIndex _ | .jumpWithOffset _ => false
  | .drawSprite _ _ _ | .skipIfKeyPressed _ | .skipIfKeyNotPressed _ | .waitKey _ | .setDelay _ => false
  | .setSound _ | .addToIndex _ | .fontCharAddress _ | .storeBcd _ | .dumpRegisters _ => false

/-- How many bytes the instruction stores, from address `I` on (44_index_memory.md R143, R144). -/
def Instr.storedBytes : Instr → Nat
  | .storeBcd _ => 3
  | .dumpRegisters x => x.val + 1
  | .clearScreen | .ret | .jump _ | .call _ | .skipIfEqualImmediate _ _ | .skipIfNotEqualImmediate _ _ => 0
  | .skipIfRegistersEqual _ _ | .skipIfRegistersNotEqual _ _ | .setImmediate _ _ | .addImmediate _ _ => 0
  | .move _ _ | .bitOr _ _ | .bitAnd _ _ | .bitXor _ _ | .add _ _ | .sub _ _ | .subReverse _ _ => 0
  | .shiftRight _ | .shiftLeft _ | .setIndex _ | .jumpWithOffset _ | .randomAnd _ _ | .drawSprite _ _ _ => 0
  | .skipIfKeyPressed _ | .skipIfKeyNotPressed _ | .getDelay _ | .waitKey _ | .setDelay _ | .setSound _ => 0
  | .addToIndex _ | .fontCharAddress _ | .loadRegisters _ => 0

end Sys2Proof
end

