-- ==== Sys2Proof/Certificates/Slice0/Obligations.lean ====
section
/-! DEFINITION. The statements of this model, each from the rules of spec/ its docstring names. A result is stated as
the whole next state, a record update of the state before: what the update does not name is unchanged. -/

open Sys2Proof Sys2Proof.Machine

/-! ### Encoding (30_encoding.md) -/

/-- Words written out from R75 decode to the instruction they stand for, at least one of every family. The opcode
numbers other than `00E0` and `1NNN` are the spec's general knowledge (R76; log entry 5). -/
def Obligations.SampleWordsDecode : Prop :=
  decodeWord 0x00E0 = some .clearScreen ∧ decodeWord 0x1200 = some (.jump 0x200) ∧
  decodeWord 0x00EE = some .ret ∧ decodeWord 0x2FFF = some (.call 0xFFF) ∧
  decodeWord 0x3A7F = some (.skipIfEqualImmediate 10 0x7F) ∧ decodeWord 0x8125 = some (.sub 1 2) ∧
  decodeWord 0x8AB6 = some (.shiftRight 10) ∧ decodeWord 0xD12F = some (.drawSprite 1 2 15) ∧
  decodeWord 0xE19E = some (.skipIfKeyPressed 1) ∧ decodeWord 0xF315 = some (.setDelay 3) ∧
  decodeWord 0xF433 = some (.storeBcd 4) ∧ decodeWord 0x0000 = none ∧ decodeWord 0x5121 = none ∧
  decodeWord 0x8128 = none ∧ decodeWord 0xE19F = none ∧ decodeWord 0xF175 = none

/-- Decoding the encoding of any well-formed instruction, with every operand at every value, gives it back: as a word,
as bytes with any bytes after it, and as the opcode table numbers its bits (R82). -/
def Obligations.DecodeOfEncodeIsIdentity : Prop :=
  ∀ i : Instr, i.wellFormed = true →
    decodeWord (encode i) = some i ∧ (∀ rest, decodeBytes (encodeBytes i ++ rest) = .instr i rest) ∧
    decodeTableWord 16 (encode i).toNat = some i

/-- Decoding then encoding gives back the word except for the `y` field of the two shifts (R82, marked derived there);
and what decodes is well-formed. -/
def Obligations.EncodeOfDecodeKeepsTheWord : Prop :=
  ∀ (w : Word) (i : Instr), decodeWord w = some i → i.wellFormed = true ∧
    encode i = (if (∃ x, i = .shiftRight x) ∨ (∃ x, i = .shiftLeft x) then w &&& 0xFF0F else w)

/-- The words that match no row are exactly those of R77's table, group by group; which numbers they are rests on the
spec's general knowledge (R76; log entry 5). -/
def Obligations.UnknownWordsAreExactlyTheTable : Prop :=
  ∀ w : Word, decodeWord w = none ↔
    (w.toNat / 4096 = 0x0 ∧ w.toNat % 4096 ∉ [0x0E0, 0x0EE]) ∨
    (w.toNat / 4096 = 0x5 ∧ w.toNat % 16 ≠ 0) ∨
    (w.toNat / 4096 = 0x8 ∧ w.toNat % 16 ∈ [0x8, 0x9, 0xA, 0xB, 0xC, 0xD, 0xF]) ∨
    (w.toNat / 4096 = 0x9 ∧ w.toNat % 16 ≠ 0) ∨
    (w.toNat / 4096 = 0xE ∧ w.toNat % 256 ∉ [0x9E, 0xA1]) ∨
    (w.toNat / 4096 = 0xF ∧ w.toNat % 256 ∉ [0x07, 0x0A, 0x15, 0x18, 0x1E, 0x29, 0x33, 0x55, 0x65])

/-- The dispatch by nibbles (R74) is the opcode map (R75): a word decodes to an instruction iff it matches a row that
builds it, and no word matches two rows, so the order of testing does not matter (marked derived in R75). -/
def Obligations.DecodeIsTheOpcodeMap : Prop :=
  (∀ (w : Word) (i : Instr), decodeWord w = some i ↔ ∃ r ∈ opcodeRows, r.hits w = true ∧ r.build w = i) ∧
  opcodeRows.Pairwise (fun r q => ∀ w : Word, ¬ (r.hits w = true ∧ q.hits w = true))

/-! ### The STEP cycle (41_step_cycle.md) -/

/-- A step is the host's next event: the oldest pending one or, when none is pending, a STEP with a free random byte.
That events stand in a list, and that an empty list means STEP, is the model's choice (log entries 1 and 2). -/
def Obligations.StepAppliesTheNextEvent : Prop :=
  (∀ (s : State) (e : Event) (es : List Event), s.pending = e :: es →
    step s = applyEvent e { s with pending := es }) ∧
  (∀ s : State, s.pending = [] →
    step s = applyEvent (.step (Config.freeRnd s.draws)) { s with draws := s.draws + 1 })

/-- When the core is neither halted nor blocked and the two bytes at `PC`, high byte first, decode to `i`, a step that
is a STEP is `exec i` at that state, with the random byte presented and the report preset to `Ok` (R102 to R105; the
inputs and the report are the model's own fields, log entries 1, 2 and 7). -/
def Obligations.StepRunsTheDecodedInstruction : Prop :=
  ∀ (s : State) (hi lo : Byte) (i : Instr), s.halted = false → s.blocked = false →
    s.memRead s.pc.toNat = some hi → s.memRead (s.pc.toNat + 1) = some lo → decodeWord (hi ++ lo) = some i →
    (s.pending = [] → step s =
      exec i { s with draws := s.draws + 1, rnd := Config.freeRnd s.draws, output := .report .ok }) ∧
    (∀ (r : Byte) (es : List Event), s.pending = .step r :: es → step s =
      exec i { s with pending := es, rnd := r, output := .report .ok })

/-- R101: a STEP of a halted or blocked core changes no state at all and reports Idle, code 0
(decision D5 of the spec for the halted core). -/
def Obligations.StepIsIdleWhenHaltedOrBlocked : Prop :=
  ∀ (s : State) (rnd : Byte), (s.halted = true ∨ s.blocked = true) →
    applyEvent (.step rnd) s = .next { s with output := .report .idle } ∧ Report.idle.code = 0

/-- R102: with the gate open, the word is the big-endian word at `PC`; with `PC >= 0xFFF` the STEP sets `HALTED` and
`CAUSE = 4`, changes nothing else and reports MemFault (decision D6 of the spec). -/
def Obligations.FetchReadsBigEndianOrFaults : Prop :=
  ∀ (s : State) (rnd : Byte),
    (∀ hi lo : Byte, s.pc.toNat < 0xFFF → s.memRead s.pc.toNat = some hi →
      s.memRead (s.pc.toNat + 1) = some lo → s.fetch = some (BitVec.ofNat 16 (hi.toNat * 256 + lo.toNat))) ∧
    (s.halted = false → s.blocked = false → s.pc.toNat ≥ 0xFFF →
      applyEvent (.step rnd) s =
        .next { s with halted := true, cause := 4, output := .report (.raised .memFault) })

/-- R104: a word that matches no row only advances `PC` by 2, sets `UNK` and is reported, code 3
(decision D4 of the spec). -/
def Obligations.UnknownOpcodeIsReportedNoOp : Prop :=
  ∀ (s : State) (rnd : Byte) (w : Word), s.halted = false → s.blocked = false → s.fetch = some w →
    decodeWord w = none →
    applyEvent (.step rnd) s = .next { s with pc := s.pc + 2, unk := true, output := .report .unknownOpcode } ∧
    Report.unknownOpcode.code = 3

/-- R105's table: where an instruction that does not fault leaves `PC`. -/
def Obligations.PcAfterEachInstruction : Prop :=
  ∀ (i : Instr) (s t : State), exec i s = .next t → s.halted = false → t.halted = false →
    match i with
    | .ret => ∃ h : 0 < s.sp.val, t.pc = s.stack[s.sp.val - 1]
    | .jump nnn | .call nnn => t.pc.toNat = nnn.toNat
    | .jumpWithOffset nnn => t.pc.toNat = nnn.toNat + s.v[0].toNat
    | .skipIfEqualImmediate x nn => t.pc = if s.v[x] = nn then s.pc + 4 else s.pc + 2
    | .skipIfNotEqualImmediate x nn => t.pc = if s.v[x] ≠ nn then s.pc + 4 else s.pc + 2
    | .skipIfRegistersEqual x y => t.pc = if s.v[x] = s.v[y] then s.pc + 4 else s.pc + 2
    | .skipIfRegistersNotEqual x y => t.pc = if s.v[x] ≠ s.v[y] then s.pc + 4 else s.pc + 2
    | .skipIfKeyPressed x =>
      t.pc = if s.key[s.v[x].toNat % 16]'(Nat.mod_lt _ (by decide)) = true then s.pc + 4 else s.pc + 2
    | .skipIfKeyNotPressed x =>
      t.pc = if s.key[s.v[x].toNat % 16]'(Nat.mod_lt _ (by decide)) = false then s.pc + 4 else s.pc + 2
    | _ => t.pc = s.pc + 2

/-- Every step answers a next state. That the decoder is total is R78 (marked derived there) and that each event
completes is R100; that a fatal fault is answered as a next state too, and never as `Outcome.fault`, is the model's
choice (log entry 4), where R173 advises a fault outcome for the halted state. -/
def Obligations.EveryStepAnswersNext : Prop := ∀ s : State, ∃ t, step s = .next t

/-! ### Faults (60_exceptions.md) -/

/-- R172: an instruction that raises leaves the state exactly as before it, but for `HALTED`, `CAUSE` and the report;
the code is 1 for StackOverflow, 2 for StackUnderflow, 4 for MemFault (R170; decisions D5 and D16 of the spec). -/
def Obligations.FaultsArePrecise : Prop :=
  (∀ (i : Instr) (s t : State), exec i s = .next t → s.halted = false → t.halted = true →
    ∃ f : Fault, t = { s with halted := true, cause := f.code, output := .report (.raised f) }) ∧
  Fault.stackOverflow.code = 1 ∧ Fault.stackUnderflow.code = 2 ∧ Fault.memFault.code = 4

/-- Which instruction raises what, and exactly when (R110, R113, R143 to R145, R152; that no instruction raises two
kinds is marked derived in R106). -/
def Obligations.FaultsExactlyWhen : Prop :=
  ∀ (i : Instr) (s : State), s.halted = false →
    ∃ t, exec i s = .next t ∧
      ((t.halted = true ∧ t.cause = 1) ↔ (∃ nnn, i = .call nnn) ∧ s.sp.val = 16) ∧
      ((t.halted = true ∧ t.cause = 2) ↔ i = .ret ∧ s.sp.val = 0) ∧
      ((t.halted = true ∧ t.cause = 4) ↔
        (∃ x, i = .storeBcd x ∧ s.i.toNat + 2 > 0xFFF) ∨
        (∃ x, (i = .dumpRegisters x ∨ i = .loadRegisters x) ∧ s.i.toNat + x.val > 0xFFF) ∨
        (∃ x y n, i = .drawSprite x y n ∧ n ≥ 1 ∧ s.i.toNat + n - 1 > 0xFFF)) ∧
      (t.halted = true → t.cause = 1 ∨ t.cause = 2 ∨ t.cause = 4)

/-- R173, R174: through any events but RESET a halted core stays halted with its `CAUSE`, executes nothing, and its
registers, index, stack, `PC`, display and `UNK` stay as they are (decision D5 of the spec). -/
def Obligations.HaltedStaysHaltedUntilReset : Prop :=
  ∀ (es : List Event) (s : State), s.halted = true → s.blocked = false → s.pending = es →
    (∀ e ∈ es, e.isReset = false) →
    ∃ t, core.run es.length s = .next t ∧ t.halted = true ∧ t.cause = s.cause ∧ t.pc = s.pc ∧ t.v = s.v ∧
      t.i = s.i ∧ t.stack = s.stack ∧ t.sp = s.sp ∧ t.disp = s.disp ∧ t.unk = s.unk ∧ t.blocked = false

/-! ### Control transfer (42_control_transfer.md) -/

/-- R110: return pops into `PC` with no advance; on an empty stack it raises StackUnderflow and nothing else changes
(decisions D5 and D12 of the spec). -/
def Obligations.ReturnPopsIntoPc : Prop :=
  ∀ s : State,
    (∀ h : 0 < s.sp.val, exec .ret s =
      .next { s with sp := ⟨s.sp.val - 1, by omega⟩, pc := s.stack[s.sp.val - 1] }) ∧
    (s.sp.val = 0 → exec .ret s =
      .next { s with halted := true, cause := 2, output := .report (.raised .stackUnderflow) })

/-- R111, R112: jump sets `PC` to `nnn`; jump-with-offset to `nnn + V[0]`, a sum that fits 16 bits and is not masked
to 12 (decision D9 of the spec). -/
def Obligations.JumpsSetPc : Prop :=
  ∀ (nnn : Addr) (s : State),
    exec (.jump nnn) s = .next { s with pc := BitVec.ofNat 16 nnn.toNat } ∧
    exec (.jumpWithOffset nnn) s = .next { s with pc := BitVec.ofNat 16 (nnn.toNat + s.v[0].toNat) } ∧
    nnn.toNat + s.v[0].toNat ≤ 0x10FE

/-- R113: call pushes `PC + 2` and jumps; with 16 entries in use it raises StackOverflow and nothing else changes
(decisions D5 and D12 of the spec). -/
def Obligations.CallPushesReturnAddress : Prop :=
  ∀ (nnn : Addr) (s : State),
    (∀ h : s.sp.val < 16, exec (.call nnn) s =
      .next { s with stack := s.stack.set s.sp.val (s.pc + 2), sp := ⟨s.sp.val + 1, by omega⟩,
                     pc := BitVec.ofNat 16 nnn.toNat }) ∧
    (s.sp.val = 16 → exec (.call nnn) s =
      .next { s with halted := true, cause := 1, output := .report (.raised .stackOverflow) })

/-- R114, R115: the immediate skips add 4 to `PC` when the comparison holds, else 2, and change nothing else. -/
def Obligations.ImmediateSkips : Prop :=
  ∀ (x : RegIdx) (nn : Byte) (s : State),
    exec (.skipIfEqualImmediate x nn) s = .next { s with pc := if s.v[x] = nn then s.pc + 4 else s.pc + 2 } ∧
    exec (.skipIfNotEqualImmediate x nn) s = .next { s with pc := if s.v[x] ≠ nn then s.pc + 4 else s.pc + 2 }

/-- R116, R117: the register skips, with `x = y` always and never skipping. -/
def Obligations.RegisterSkips : Prop :=
  ∀ (x y : RegIdx) (s : State),
    exec (.skipIfRegistersEqual x y) s =
      .next { s with pc := if s.v[x] = s.v[y] then s.pc + 4 else s.pc + 2 } ∧
    exec (.skipIfRegistersNotEqual x y) s =
      .next { s with pc := if s.v[x] ≠ s.v[y] then s.pc + 4 else s.pc + 2 } ∧
    exec (.skipIfRegistersEqual x x) s = .next { s with pc := s.pc + 4 } ∧
    exec (.skipIfRegistersNotEqual x x) s = .next { s with pc := s.pc + 2 }

/-- A call that has room, then a return from anywhere in the callee, comes back to the instruction after the call with
the stack as before (source property S9 of 95_test_vectors.md, from R110 and R113). -/
def Obligations.CallThenReturnComesBack : Prop :=
  ∀ (nnn : Addr) (s : State) (p : Word), s.sp.val < 16 →
    ∃ t u, exec (.call nnn) s = .next t ∧ exec .ret { t with pc := p } = .next u ∧ u.pc = s.pc + 2 ∧
      u.sp = s.sp ∧ u = { s with pc := u.pc, stack := u.stack } ∧
      ∀ (k : Nat) (h : k < s.sp.val), u.stack[k] = s.stack[k]

/-! ### Registers and ALU (43_alu.md) -/

/-- R121 to R123: set-immediate, add-immediate modulo 256 with the carry discarded, move; VF is written only as the
named destination. -/
def Obligations.ImmediatesAndMove : Prop :=
  ∀ (x y : RegIdx) (nn : Byte) (s : State),
    exec (.setImmediate x nn) s = .next { s with v := s.v.set x nn, pc := s.pc + 2 } ∧
    exec (.addImmediate x nn) s =
      .next { s with v := s.v.set x (BitVec.ofNat 8 ((s.v[x].toNat + nn.toNat) % 256)), pc := s.pc + 2 } ∧
    exec (.move x y) s = .next { s with v := s.v.set x s.v[y], pc := s.pc + 2 }

/-- R124 to R126: the bitwise instructions, with VF unaffected. -/
def Obligations.BitwiseLeaveVF : Prop :=
  ∀ (x y : RegIdx) (s : State),
    exec (.bitOr x y) s = .next { s with v := s.v.set x (s.v[x] ||| s.v[y]), pc := s.pc + 2 } ∧
    exec (.bitAnd x y) s = .next { s with v := s.v.set x (s.v[x] &&& s.v[y]), pc := s.pc + 2 } ∧
    exec (.bitXor x y) s = .next { s with v := s.v.set x (s.v[x] ^^^ s.v[y]), pc := s.pc + 2 }

/-- R127: add writes the carry to VF, then the sum modulo 256 to `V[x]`; with `x = 15` the sum stays (the spec's
decision D7). -/
def Obligations.AddWritesCarryThenSum : Prop :=
  ∀ (x y : RegIdx) (s : State), exec (.add x y) s =
    .next { s with
      v := (s.v.set VF (if s.v[x].toNat + s.v[y].toNat > 255 then 1 else 0)).set x
        (BitVec.ofNat 8 ((s.v[x].toNat + s.v[y].toNat) % 256)),
      pc := s.pc + 2 }

/-- R128, R130: sub and sub-reverse write "no borrow" to VF, then the difference modulo 256 (D7 for `x = 15`). -/
def Obligations.SubtractionsWriteNoBorrow : Prop :=
  ∀ (x y : RegIdx) (s : State),
    exec (.sub x y) s =
      .next { s with
        v := (s.v.set VF (if s.v[x].toNat ≥ s.v[y].toNat then 1 else 0)).set x
          (BitVec.ofInt 8 (((s.v[x].toNat : Int) - (s.v[y].toNat : Int)) % 256)),
        pc := s.pc + 2 } ∧
    exec (.subReverse x y) s =
      .next { s with
        v := (s.v.set VF (if s.v[y].toNat ≥ s.v[x].toNat then 1 else 0)).set x
          (BitVec.ofInt 8 (((s.v[y].toNat : Int) - (s.v[x].toNat : Int)) % 256)),
        pc := s.pc + 2 }

/-- R129, R131: the shifts act on `V[x]` in place, by one place, and write the lost bit to VF first (D7 for
`x = 15`). -/
def Obligations.ShiftsWriteTheLostBit : Prop :=
  ∀ (x : RegIdx) (s : State),
    exec (.shiftRight x) s =
      .next { s with
        v := (s.v.set VF (BitVec.ofNat 8 (s.v[x].toNat % 2))).set x (BitVec.ofNat 8 (s.v[x].toNat / 2)),
        pc := s.pc + 2 } ∧
    exec (.shiftLeft x) s =
      .next { s with
        v := (s.v.set VF (BitVec.ofNat 8 (s.v[x].toNat / 128))).set x
          (BitVec.ofNat 8 (s.v[x].toNat * 2 % 256)),
        pc := s.pc + 2 }

/-- R133: random-and writes `rnd & nn` for every value of the random byte; the result has no bit outside `nn`
(decision D15 of the spec). -/
def Obligations.RandomAndForEveryByte : Prop :=
  ∀ (x : RegIdx) (nn rnd : Byte) (s : State), s.rnd = rnd →
    exec (.randomAnd x nn) s = .next { s with v := s.v.set x (rnd &&& nn), pc := s.pc + 2 } ∧
    (rnd &&& nn) &&& ~~~nn = 0

/-! ### Index and memory (44_index_memory.md, 20_memory.md) -/

/-- R141, R142, R146: the three writers of `I` that touch no memory; sums wrap at 65536, the whole byte is multiplied,
no flag is written (decision D8 of the spec for the wrap). -/
def Obligations.IndexWrites : Prop :=
  ∀ (nnn : Addr) (x : RegIdx) (s : State),
    exec (.setIndex nnn) s = .next { s with i := BitVec.ofNat 16 nnn.toNat, pc := s.pc + 2 } ∧
    exec (.addToIndex x) s =
      .next { s with i := BitVec.ofNat 16 ((s.i.toNat + s.v[x].toNat) % 65536), pc := s.pc + 2 } ∧
    exec (.fontCharAddress x) s =
      .next { s with i := BitVec.ofNat 16 (s.v[x].toNat * 5), pc := s.pc + 2 }

/-- R143: store-bcd writes the three decimal digits at `I`, `I + 1`, `I + 2`, every other byte and all other state but
`PC` staying; beyond 0xFFF it raises MemFault with nothing written (decision D6 of the spec). -/
def Obligations.StoreBcdWritesThreeDigits : Prop :=
  ∀ (x : RegIdx) (s : State),
    (s.i.toNat + 2 ≤ 0xFFF → ∃ t, exec (.storeBcd x) s = .next t ∧
      t = { s with mem := t.mem, pc := s.pc + 2 } ∧
      t.memRead s.i.toNat = some (BitVec.ofNat 8 (s.v[x].toNat / 100)) ∧
      t.memRead (s.i.toNat + 1) = some (BitVec.ofNat 8 (s.v[x].toNat / 10 % 10)) ∧
      t.memRead (s.i.toNat + 2) = some (BitVec.ofNat 8 (s.v[x].toNat % 10)) ∧
      ∀ a, (a < s.i.toNat ∨ s.i.toNat + 2 < a) → t.memRead a = s.memRead a) ∧
    (s.i.toNat + 2 > 0xFFF → exec (.storeBcd x) s =
      .next { s with halted := true, cause := 4, output := .report (.raised .memFault) })

/-- R144: dump-registers copies `V[0..x]` to memory at `I` and advances `I` by `x + 1`; that the advance is `x + 1` and
not `V[x] + 1` is an inference the spec marks as its own in R144 (log entry 12). -/
def Obligations.DumpRegistersCopiesToMemory : Prop :=
  ∀ (x : RegIdx) (s : State),
    (s.i.toNat + x.val ≤ 0xFFF → ∃ t, exec (.dumpRegisters x) s = .next t ∧
      t = { s with mem := t.mem, i := BitVec.ofNat 16 ((s.i.toNat + x.val + 1) % 65536), pc := s.pc + 2 } ∧
      (∀ k : RegIdx, k ≤ x → t.memRead (s.i.toNat + k.val) = some s.v[k]) ∧
      ∀ a, (a < s.i.toNat ∨ s.i.toNat + x.val < a) → t.memRead a = s.memRead a) ∧
    (s.i.toNat + x.val > 0xFFF → exec (.dumpRegisters x) s =
      .next { s with halted := true, cause := 4, output := .report (.raised .memFault) })

/-- R145: load-registers copies memory at `I` to `V[0..x]` and advances `I` by `x + 1`, registers above `x` and all of
memory staying; the advance as in R144 (log entry 12). -/
def Obligations.LoadRegistersCopiesFromMemory : Prop :=
  ∀ (x : RegIdx) (s : State),
    (s.i.toNat + x.val ≤ 0xFFF → ∃ t, exec (.loadRegisters x) s = .next t ∧
      t = { s with v := t.v, i := BitVec.ofNat 16 ((s.i.toNat + x.val + 1) % 65536), pc := s.pc + 2 } ∧
      (∀ k : RegIdx, k ≤ x → s.memRead (s.i.toNat + k.val) = some t.v[k]) ∧
      ∀ k : RegIdx, x < k → t.v[k] = s.v[k]) ∧
    (s.i.toNat + x.val > 0xFFF → exec (.loadRegisters x) s =
      .next { s with halted := true, cause := 4, output := .report (.raised .memFault) })

/-- Dump, then load of the same block from the same `I` whatever became of the registers, gives `V0..Vx` back (source
property S5 of 95_test_vectors.md, from R144 and R145). -/
def Obligations.DumpThenLoadRoundTrip : Prop :=
  ∀ (x : RegIdx) (s : State) (v : Vector Byte 16) (p : Word), s.i.toNat + x.val ≤ 0xFFF →
    ∃ t u, exec (.dumpRegisters x) s = .next t ∧
      exec (.loadRegisters x) { t with v := v, i := s.i, pc := p } = .next u ∧
      (∀ k : RegIdx, k ≤ x → u.v[k] = s.v[k]) ∧ (∀ k : RegIdx, x < k → u.v[k] = v[k]) ∧ u.mem = t.mem

/-- Self-modifying code: bytes dumped over the next instruction are what the very next fetch reads (R60, marked
derived there). -/
def Obligations.StoredBytesAreFetchedNext : Prop :=
  ∀ (x : RegIdx) (s : State), 1 ≤ x.val → s.i = s.pc + 2 → s.i.toNat + x.val ≤ 0xFFF →
    ∃ t, exec (.dumpRegisters x) s = .next t ∧ t.pc = s.i ∧
      t.fetch = some (BitVec.ofNat 16 (s.v[0].toNat * 256 + s.v[1].toNat))

/-- R52, R54: a checked byte access inside 0x000..0xFFF goes through, one above it does not; a write is read back and
leaves every other byte alone, in every memory, canonical or not. -/
def Obligations.ByteAccessesAreChecked : Prop :=
  ∀ (font : Vector Byte 80) (m : Memory) (a : Nat) (b : Byte),
    ((Memory.readByte font m a).isSome = true ↔ a ≤ 0xFFF) ∧
    ((Memory.writeByte font m a b).isSome = true ↔ a ≤ 0xFFF) ∧
    ∀ m', Memory.writeByte font m a b = some m' →
      Memory.readByte font m' a = some b ∧ ∀ c, c ≠ a → Memory.readByte font m' c = Memory.readByte font m c

/-! ### Display (45_display.md) -/

/-- R151: clear-screen clears every pixel and sets `DIRTY` unconditionally. -/
def Obligations.ClearScreenClearsAll : Prop :=
  ∀ s : State, ∃ t, exec .clearScreen s = .next t ∧
    t = { s with disp := t.disp, dirty := true, pc := s.pc + 2 } ∧
    ∀ (py : Fin 32) (px : Fin 64), t.disp.pixel py px = false

/-- R152, with the properties of R153 (d): a draw XORs the wrapped sprite into the display, VF reports whether a set
pixel was hit, `DIRTY` is set if any pixel changed, and nothing else but `PC` changes; an out-of-range row raises
MemFault with nothing written. Wrapping is the spec's decision D3, the fault its decision D6; the closed form is
marked derived in R153. -/
def Obligations.DrawSpriteXorsWrappedSprite : Prop :=
  ∀ (x y : RegIdx) (n : Nat) (s : State), n ≤ 15 →
    ((n = 0 ∨ s.i.toNat + n - 1 ≤ 0xFFF) → ∃ t, exec (.drawSprite x y n) s = .next t ∧
      t = { s with disp := t.disp, dirty := t.dirty, v := s.v.set VF t.v[VF], pc := s.pc + 2 } ∧
      (∀ (py : Fin 32) (px : Fin 64),
        (s.spriteCovers x y n py px → t.disp.pixel py px = !(s.disp.pixel py px)) ∧
        (¬ s.spriteCovers x y n py px → t.disp.pixel py px = s.disp.pixel py px)) ∧
      ((∃ py px, s.spriteCovers x y n py px ∧ s.disp.pixel py px = true) → t.v[VF] = 1) ∧
      ((¬ ∃ py px, s.spriteCovers x y n py px ∧ s.disp.pixel py px = true) → t.v[VF] = 0) ∧
      ((∃ py px, s.spriteCovers x y n py px) → t.dirty = true) ∧
      ((¬ ∃ py px, s.spriteCovers x y n py px) → t.dirty = s.dirty)) ∧
    (n ≥ 1 → s.i.toNat + n - 1 > 0xFFF → exec (.drawSprite x y n) s =
      .next { s with halted := true, cause := 4, output := .report (.raised .memFault) })

/-- Two identical draws at the same position restore the display, and from a clear display the second reports a
collision, VF = 1, exactly when the sprite has a set bit, and VF = 0 otherwise (source property S6, R153 (c), marked
derived there). With `x = 15` or `y = 15` the first draw's VF would move the sprite, so the draws would differ. -/
def Obligations.DrawTwiceRestoresDisplay : Prop :=
  ∀ (x y : RegIdx) (n : Nat) (s : State) (p : Word), n ≤ 15 → x ≠ 15 → y ≠ 15 →
    (n = 0 ∨ s.i.toNat + n - 1 ≤ 0xFFF) →
    ∃ t u, exec (.drawSprite x y n) s = .next t ∧ exec (.drawSprite x y n) { t with pc := p } = .next u ∧
      u.disp = s.disp ∧
      ((∀ py px, s.disp.pixel py px = false) → t.v[VF] = 0 ∧
        ((∃ py px, s.spriteCovers x y n py px) → u.v[VF] = 1) ∧
        ((¬ ∃ py px, s.spriteCovers x y n py px) → u.v[VF] = 0))

/-! ### Keypad and timers (46_keypad_timers.md) -/

/-- R160, R161, R167: the key skips test the flag of the key the low four bits of `V[x]` select (decision D10 of the
spec). -/
def Obligations.KeySkips : Prop :=
  ∀ (x : RegIdx) (s : State) (down : Bool), s.key[s.v[x].toNat % 16]'(Nat.mod_lt _ (by decide)) = down →
    exec (.skipIfKeyPressed x) s = .next { s with pc := if down = true then s.pc + 4 else s.pc + 2 } ∧
    exec (.skipIfKeyNotPressed x) s = .next { s with pc := if down = false then s.pc + 4 else s.pc + 2 }

/-- R162: wait-key blocks the core with target `x`, `PC` advancing at once and `V[x]` unwritten. -/
def Obligations.WaitKeyBlocks : Prop :=
  ∀ (x : RegIdx) (s : State),
    exec (.waitKey x) s = .next { s with blocked := true, ktarget := x, pc := s.pc + 2 }

/-- R163 to R165: get-delay, set-delay, set-sound. -/
def Obligations.TimerMoves : Prop :=
  ∀ (x : RegIdx) (s : State),
    exec (.getDelay x) s = .next { s with v := s.v.set x s.dt, pc := s.pc + 2 } ∧
    exec (.setDelay x) s = .next { s with dt := s.v[x], pc := s.pc + 2 } ∧
    exec (.setSound x) s = .next { s with st := s.v[x], pc := s.pc + 2 }

/-- R166: a TICK decrements each timer that is above 0, in every state of the core, and changes nothing else (decision
D5 of the spec for the halted core). -/
def Obligations.TickCountsDown : Prop :=
  ∀ s : State, applyEvent .tick s =
    .next { s with dt := if s.dt.toNat > 0 then s.dt - 1 else s.dt,
                   st := if s.st.toNat > 0 then s.st - 1 else s.st, output := .none }

/-- Any number of TICKs in a row brings each timer down by that number and never below 0 (R28, R166; vector K14 of
95_test_vectors.md). -/
def Obligations.TicksSaturateAtZero : Prop :=
  ∀ (n : Nat) (s : State), s.pending = List.replicate n .tick →
    ∃ t, core.run n s = .next t ∧ t.dt.toNat = s.dt.toNat - n ∧ t.st.toNat = s.st.toNat - n ∧
      t = { s with dt := t.dt, st := t.st, pending := [], output := t.output }

/-- R94: a KEY event updates its flag; a key-down while blocked also writes the code to `V[KTARGET]` and unblocks, and
nothing else changes. -/
def Obligations.KeyEventUpdatesAndUnblocks : Prop :=
  ∀ (code : KeyCode) (pressed : Bool) (s : State), applyEvent (.key code pressed) s =
    .next (if pressed = true ∧ s.blocked = true then
      { s with key := s.key.set code true, v := s.v.set s.ktarget (BitVec.ofNat 8 code.val), blocked := false,
               output := .none }
    else { s with key := s.key.set code pressed, output := .none })

/-- A blocked core stays blocked, at the same `PC` and with the same registers, through any events but RESET and a
key-down; the key-down then gives `V[KTARGET]` its code and ends the wait (R32, R94, R101, R162; source property
S10). -/
def Obligations.BlockedUntilKeyDown : Prop :=
  ∀ (es : List Event) (code : KeyCode) (s : State), s.blocked = true →
    s.pending = es ++ [.key code true] → (∀ e ∈ es, e.isReset = false ∧ e.isKeyDown = false) →
    ∃ t u, core.run es.length s = .next t ∧ t.blocked = true ∧ t.pc = s.pc ∧ t.v = s.v ∧ t.ktarget = s.ktarget ∧
      core.run (es.length + 1) s = .next u ∧ u.blocked = false ∧ u.pc = s.pc ∧
      u.v = s.v.set s.ktarget (BitVec.ofNat 8 code.val)

/-! ### Host events (40_host_operations.md) -/

/-- R91, R35: RESET gives every piece of state its reset value, whatever the state before; memory is the font and
zeros. The values the source does not list are the spec's decision D11. That the parameter, the inputs and the pending
events stay (the last four clauses) is the model's choice (log entry 15), and so is the field of the output, which RESET
does not have (log entry 7). -/
def Obligations.ResetEventSetsEveryField : Prop :=
  ∀ s : State, ∃ t, applyEvent .reset s = .next t ∧
    (∀ a, t.memRead a = if h : a < 80 then some s.font[a] else if a ≤ 0xFFF then some 0x00 else none) ∧
    (∀ r : RegIdx, t.v[r] = 0x00) ∧ t.i = 0x0000 ∧ t.pc = 0x0200 ∧ (∀ k : Fin 16, t.stack[k] = 0x0000) ∧
    t.sp = 0 ∧ t.dt = 0x00 ∧ t.st = 0x00 ∧ (∀ k : KeyCode, t.key[k] = false) ∧
    (∀ (py : Fin 32) (px : Fin 64), t.disp.pixel py px = false) ∧ t.dirty = true ∧ t.blocked = false ∧
    t.ktarget = 0 ∧ t.halted = false ∧ t.cause = 0 ∧ t.unk = false ∧ t.output = .none ∧
    t.font = s.font ∧ t.rnd = s.rnd ∧ t.draws = s.draws ∧ t.pending = s.pending

/-- R23: after RESET row `r` of glyph `d` is `FONT[5*d + r]`, for every value of the parameter, and
font-char-address of `d` points at its row 0 (R146). -/
def Obligations.GlyphsLieWhereFontCharPoints : Prop :=
  ∀ (font : Vector Byte 80) (d : Nat) (r : Nat) (hd : d < 16) (hr : r < 5) (x : RegIdx) (s : State),
    (State.resetWith font).memRead (5 * d + r) = some (font[5 * d + r]'(by omega)) ∧
    (s.v[x].toNat = d → ∃ t, exec (.fontCharAddress x) s = .next t ∧ t.i.toNat = 5 * d)

/-- R92: LOAD copies the image to 0x200 and touches nothing else; an image longer than 3584 bytes is rejected with no
state change; it acts in every state (decision D21 of the spec). -/
def Obligations.LoadCopiesOrRejects : Prop :=
  ∀ (bytes : List Byte) (s : State),
    (bytes.length ≤ 3584 → ∃ t, applyEvent (.load bytes) s = .next t ∧
      t = { s with mem := t.mem, output := .load .ok } ∧
      (∀ (k : Nat) (h : k < bytes.length), t.memRead (0x200 + k) = some bytes[k]) ∧
      ∀ a, (a < 0x200 ∨ 0x200 + bytes.length ≤ a) → t.memRead a = s.memRead a) ∧
    (bytes.length > 3584 → applyEvent (.load bytes) s = .next { s with output := .load .romTooLarge })

/-- R95: TAKE_DISPLAY hands over a copy of the pixels and clears `DIRTY` if it was set, else gives nothing; bit
`y*64 + x` of the copy is `DISP[y][x]` (decision D17 of the spec). -/
def Obligations.TakeDisplayIfDirty : Prop :=
  (∀ s : State,
    (s.dirty = true → applyEvent .takeDisplay s =
      .next { s with dirty := false, output := .display (some s.disp) }) ∧
    (s.dirty = false → applyEvent .takeDisplay s = .next { s with output := .display none })) ∧
  ∀ (d : Display) (y : Fin 32) (x : Fin 64),
    d.snapshotBit ⟨y.val * 64 + x.val, by omega⟩ = d.pixel y x

/-- R96, R97: in one clock cycle any strobes act in the order LOAD byte, KEY, TICK, STEP, TAKE_DISPLAY, each that is
high as its event and each that is low not at all; the `report` pin is the STEP's report, 0 in a cycle without a STEP;
`rst` suppresses every other strobe. That the pins are sampled before the read-out clears `DIRTY`, and that the LOAD
strobe takes every 12-bit address, is the model's reading (log entry 11); that with `rst` high they show the state
after RESET is the model's choice (log entry 17). -/
def Obligations.StrobesActInFixedOrder : Prop :=
  (∀ (σ : Strobes) (s : State), σ.rst = false → ∃ (a b c d u : State) (π : Pins),
    cycle σ s = .next (u, π) ∧
    (match σ.load with
      | none => a = s
      | some (ad, data) => a = { s with mem := a.mem } ∧ a.memRead ad.toNat = some data ∧
        ∀ k, k ≠ ad.toNat → a.memRead k = s.memRead k) ∧
    (match σ.key with
      | none => b = a
      | some (code, pressed) => applyEvent (.key code pressed) a = .next b) ∧
    (if σ.tick = true then applyEvent .tick b = .next c else c = b) ∧
    (match σ.step with
      | none => d = c ∧ π.report = 0
      | some rnd => applyEvent (.step rnd) c = .next d ∧ ∃ r, d.output = .report r ∧ π.report = r.code) ∧
    (if σ.take = true then applyEvent .takeDisplay d = .next u else u = d) ∧
    π.disp = d.disp ∧ π.dirty = d.dirty ∧ π.halted = d.halted ∧ π.cause = d.cause ∧ π.unk = d.unk ∧
    (π.soundOn = true ↔ d.st ≠ 0)) ∧
  ∀ (σ : Strobes) (s : State), σ.rst = true → ∃ (t : State) (π : Pins),
    cycle σ s = .next (t, π) ∧ applyEvent .reset s = .next t ∧ π.report = 0 ∧ π.disp = t.disp ∧
    π.dirty = t.dirty ∧ π.halted = t.halted ∧ π.cause = t.cause ∧ π.unk = t.unk ∧ (π.soundOn = true ↔ t.st ≠ 0)

/-! ### Frames and whole-machine rules -/

/-- R21, R20: an instruction changes no general register but the ones it names as destination and, if it is one of the
six flag writers, VF. -/
def Obligations.RegistersKeptButDestinations : Prop :=
  ∀ (i : Instr) (s t : State) (r : RegIdx), exec i s = .next t → i.names r = false →
    ¬ (r = 15 ∧ i.writesFlag = true) → t.v[r] = s.v[r]

/-- R22, R143, R144: an instruction changes no byte of memory outside the bytes it stores, which start at `I` as it was
before; instructions that store nothing leave all of memory as it reads. -/
def Obligations.MemoryKeptButStoredBytes : Prop :=
  ∀ (i : Instr) (s t : State) (a : Nat), exec i s = .next t →
    (a < s.i.toNat ∨ s.i.toNat + i.storedBytes ≤ a) → t.memRead a = s.memRead a

/-- Which instructions may change each other piece of state (the "written by" column of 10_state.md section 1; R27 to
R34): every field not named for an instruction is left as it was. `HALTED` and `CAUSE` are written only by `raise`
(R33), so only the six instructions that can raise (R106) may change them or the report, and those change `CAUSE` and
the report only as they halt. `UNK`, the parameter and the inputs no instruction writes. -/
def Obligations.OtherStateKeptButItsWriters : Prop :=
  ∀ (i : Instr) (s t : State), exec i s = .next t →
    ((∀ nnn, i ≠ .call nnn) → t.stack = s.stack) ∧
    ((∀ nnn, i ≠ .call nnn) → i ≠ .ret → t.sp = s.sp) ∧
    ((∀ x, i ≠ .setDelay x) → t.dt = s.dt) ∧ ((∀ x, i ≠ .setSound x) → t.st = s.st) ∧ t.key = s.key ∧
    (i ≠ .clearScreen → (∀ x y n, i ≠ .drawSprite x y n) → t.disp = s.disp ∧ t.dirty = s.dirty) ∧
    ((∀ x, i ≠ .waitKey x) → t.blocked = s.blocked ∧ t.ktarget = s.ktarget) ∧
    ((∀ nnn, i ≠ .setIndex nnn) → (∀ x, i ≠ .addToIndex x) → (∀ x, i ≠ .fontCharAddress x) →
      (∀ x, i ≠ .dumpRegisters x) → (∀ x, i ≠ .loadRegisters x) → t.i = s.i) ∧
    t.unk = s.unk ∧ t.font = s.font ∧ t.rnd = s.rnd ∧ t.draws = s.draws ∧ t.pending = s.pending ∧
    ((∀ nnn, i ≠ .call nnn) → i ≠ .ret → (∀ x, i ≠ .storeBcd x) → (∀ x, i ≠ .dumpRegisters x) →
      (∀ x, i ≠ .loadRegisters x) → (∀ x y n, i ≠ .drawSprite x y n) →
      t.halted = s.halted ∧ t.cause = s.cause ∧ t.output = s.output) ∧
    (t.halted = s.halted → s.halted = false → t.cause = s.cause ∧ t.output = s.output)

/-- R29: no step but a KEY event or a RESET changes a key flag. -/
def Obligations.KeysChangeOnlyByTheHost : Prop :=
  ∀ s t : State, step s = .next t → (∀ c p, s.nextEvent ≠ .key c p) → s.nextEvent ≠ .reset → t.key = s.key

/-- 00_scope.md R6: `FONT` is a parameter, which no step changes. -/
def Obligations.FontIsNeverWritten : Prop := ∀ s t : State, step s = .next t → t.font = s.font

/-- R28, R31, R33, R34: no instruction reads `ST`, `DIRTY`, `UNK`, `CAUSE` or `HALTED`. Changing one of them before an
instruction changes no other piece of state after it, none of the other four either, and the field itself then holds
the changed value or what the instruction writes there anyway. (The gate of a STEP reads `HALTED`, R101; `exec` is what
runs behind it.) -/
def Obligations.UnreadStateIsInvisible : Prop :=
  ∀ (i : Instr) (s t : State), exec i s = .next t →
    (∀ b : Byte, ∃ t', exec i { s with st := b } = .next t' ∧
      t' = { t with st := t'.st } ∧ (t'.st = b ∨ t'.st = t.st)) ∧
    (∀ b : Bool, ∃ t', exec i { s with dirty := b } = .next t' ∧
      t' = { t with dirty := t'.dirty } ∧ (t'.dirty = b ∨ t'.dirty = t.dirty)) ∧
    (∀ b : Bool, ∃ t', exec i { s with unk := b } = .next t' ∧
      t' = { t with unk := t'.unk } ∧ (t'.unk = b ∨ t'.unk = t.unk)) ∧
    (∀ c : BitVec 3, ∃ t', exec i { s with cause := c } = .next t' ∧
      t' = { t with cause := t'.cause } ∧ (t'.cause = c ∨ t'.cause = t.cause)) ∧
    (∀ b : Bool, ∃ t', exec i { s with halted := b } = .next t' ∧
      t' = { t with halted := t'.halted } ∧ (t'.halted = b ∨ t'.halted = t.halted))

/-- R27: stack entries at or above `SP` are unobservable: two states that differ only there stay so under every
instruction (marked derived in R27). -/
def Obligations.StackAboveSpIsInvisible : Prop :=
  ∀ (i : Instr) (s t : State) (st : Vector Word 16), exec i s = .next t →
    (∀ (k : Nat) (h : k < s.sp.val), st[k] = s.stack[k]) →
    ∃ t', exec i { s with stack := st } = .next t' ∧ t' = { t with stack := t'.stack } ∧
      ∀ (k : Nat) (h : k < t.sp.val), t'.stack[k] = t.stack[k]

/-- R197, R111: at a jump to itself a STEP changes nothing of the spec's state, and a TICK only runs the timers. The
convention is the spec's own (decision D22); the core does not detect it. -/
def Obligations.SelfJumpIsAFixedPoint : Prop :=
  ∀ (s : State) (rnd : Byte), s.finished →
    applyEvent (.step rnd) s = .next { s with rnd := rnd, output := .report .ok } ∧
    ∃ t, applyEvent .tick s = .next t ∧ t.finished ∧ t = { s with dt := t.dt, st := t.st, output := .none }

/-! ### The invariant -/

/-- The state after reset meets the invariant, for the default font and for every font. Its canonical form of memory
(addresses rising, no entry equal to the reset contents) is the model's own (log entry 10); that addresses lie inside
0x000..0xFFF is R50, and that `BLOCKED` and `HALTED` are never both 1 is marked derived in R33. -/
def Obligations.ResetMeetsInvariant : Prop :=
  State.reset.Inv ∧ ∀ font : Vector Byte 80, (State.resetWith font).Inv

/-- From every state that meets the invariant every step, whatever the event, gives a state that meets it. Memory stays
in its canonical form, addresses rising and no entry equal to the reset contents: the model's own (log entry 10), where
R50 gives only the range 0x000..0xFFF. `BLOCKED` and `HALTED` are never both 1, which R33 marks as derived. `CAUSE` is
0 while running and 1, 2 or 4 while halted (R33, R170; decisions D5 and D16 of the spec). -/
def Obligations.EveryStepKeepsInvariant : Prop := ∀ s t : State, s.Inv → step s = .next t → t.Inv

/-! ### Codes (60_exceptions.md) -/

/-- R170, R171: the codes of the errors and of the STEP reports, 5 for RomTooLarge, which is no STEP report; codes 5 and
6 never appear as a report (decision D16 of the spec). -/
def Obligations.ErrorAndReportCodes : Prop :=
  Report.idle.code = 0 ∧ (Report.raised .stackOverflow).code = 1 ∧ (Report.raised .stackUnderflow).code = 2 ∧
  Report.unknownOpcode.code = 3 ∧ (Report.raised .memFault).code = 4 ∧ Report.ok.code = 7 ∧
  LoadStatus.romTooLarge.errorCode = some 5 ∧ LoadStatus.ok.errorCode = none ∧
  (∀ f : Fault, (Report.raised f).code = f.code) ∧ ∀ r : Report, r.code ≠ 5 ∧ r.code ≠ 6
end

