-- ==== Sys2Proof/Laws/Decode.lean ====
section
/-! SUPPORT. What the field cutters read from the words of the three layouts, so that no later proof goes down to
bits. -/

namespace Sys2Proof

@[simp] theorem regBits_toFin (r : RegIdx) : (regBits r).toFin = r := by
  apply Fin.ext
  simp [regBits]

@[simp] theorem regBits_ofFin (b : BitVec 4) : regBits b.toFin = b := by
  apply BitVec.eq_of_toNat_eq
  simp [regBits]

/-! ### The bits of the layouts (R72) -/

theorem wordOfBytes_bit (hi lo : Byte) (k : Nat) :
    (wordOfBytes hi lo).getLsbD k = if k < 8 then lo.getLsbD k else hi.getLsbD (k - 8) :=
  BitVec.getLsbD_append (x := hi) (y := lo) (i := k)

theorem wordA_bit (op : BitVec 4) (nnn : Addr) (k : Nat) :
    (wordA op nnn).getLsbD k = if k < 12 then nnn.getLsbD k else op.getLsbD (k - 12) :=
  BitVec.getLsbD_append (x := op) (y := nnn) (i := k)

theorem wordXI_bit (op : BitVec 4) (x : RegIdx) (nn : Byte) (k : Nat) :
    (wordXI op x nn).getLsbD k =
      if k < 8 then nn.getLsbD k else if k - 8 < 4 then (regBits x).getLsbD (k - 8) else op.getLsbD (k - 8 - 4) := by
  have h := BitVec.getLsbD_append (x := op ++ regBits x) (y := nn) (i := k)
  rw [BitVec.getLsbD_append (x := op)] at h
  exact h

theorem wordXY_bit (op : BitVec 4) (x y : RegIdx) (n : BitVec 4) (k : Nat) :
    (wordXY op x y n).getLsbD k =
      if k < 4 then n.getLsbD k
      else if k - 4 < 4 then (regBits y).getLsbD (k - 4)
      else if k - 4 - 4 < 4 then (regBits x).getLsbD (k - 4 - 4)
      else op.getLsbD (k - 4 - 4 - 4) := by
  have h := BitVec.getLsbD_append (x := op ++ regBits x ++ regBits y) (y := n) (i := k)
  rw [BitVec.getLsbD_append (x := op ++ regBits x), BitVec.getLsbD_append (x := op)] at h
  exact h

/-! ### Format A -/

theorem wordA_op (op : BitVec 4) (nnn : Addr) : (wordA op nnn).extractLsb' 12 4 = op := by
  apply BitVec.eq_of_getLsbD_eq; intro k hk
  rw [BitVec.getLsbD_extractLsb', wordA_bit]
  interval_cases k <;> simp

theorem wordA_nnn (op : BitVec 4) (nnn : Addr) : (wordA op nnn).extractLsb' 0 12 = nnn := by
  apply BitVec.eq_of_getLsbD_eq; intro k hk
  rw [BitVec.getLsbD_extractLsb', wordA_bit]
  interval_cases k <;> simp

@[simp] theorem opField_wordA (op : BitVec 4) (nnn : Addr) : opField (wordA op nnn) = op.toNat := by
  simp [opField, wordA_op]

@[simp] theorem nnnField_wordA (op : BitVec 4) (nnn : Addr) : nnnField (wordA op nnn) = nnn := by
  simp [nnnField, wordA_nnn]

/-! ### Formats XI and X -/

theorem wordXI_op (op : BitVec 4) (x : RegIdx) (nn : Byte) : (wordXI op x nn).extractLsb' 12 4 = op := by
  apply BitVec.eq_of_getLsbD_eq; intro k hk
  rw [BitVec.getLsbD_extractLsb', wordXI_bit]
  interval_cases k <;> simp

theorem wordXI_x (op : BitVec 4) (x : RegIdx) (nn : Byte) : (wordXI op x nn).extractLsb' 8 4 = regBits x := by
  apply BitVec.eq_of_getLsbD_eq; intro k hk
  rw [BitVec.getLsbD_extractLsb', wordXI_bit]
  interval_cases k <;> simp

theorem wordXI_nn (op : BitVec 4) (x : RegIdx) (nn : Byte) : (wordXI op x nn).extractLsb' 0 8 = nn := by
  apply BitVec.eq_of_getLsbD_eq; intro k hk
  rw [BitVec.getLsbD_extractLsb', wordXI_bit]
  interval_cases k <;> simp

@[simp] theorem opField_wordXI (op : BitVec 4) (x : RegIdx) (nn : Byte) : opField (wordXI op x nn) = op.toNat := by
  simp [opField, wordXI_op]

@[simp] theorem xField_wordXI (op : BitVec 4) (x : RegIdx) (nn : Byte) : xField (wordXI op x nn) = x := by
  simp [xField, wordXI_x]

@[simp] theorem nnField_wordXI (op : BitVec 4) (x : RegIdx) (nn : Byte) : nnField (wordXI op x nn) = nn := by
  simp [nnField, wordXI_nn]

/-! ### Formats XY and XYN -/

theorem wordXY_op (op : BitVec 4) (x y : RegIdx) (n : BitVec 4) : (wordXY op x y n).extractLsb' 12 4 = op := by
  apply BitVec.eq_of_getLsbD_eq; intro k hk
  rw [BitVec.getLsbD_extractLsb', wordXY_bit]
  interval_cases k <;> simp

theorem wordXY_x (op : BitVec 4) (x y : RegIdx) (n : BitVec 4) :
    (wordXY op x y n).extractLsb' 8 4 = regBits x := by
  apply BitVec.eq_of_getLsbD_eq; intro k hk
  rw [BitVec.getLsbD_extractLsb', wordXY_bit]
  interval_cases k <;> simp

theorem wordXY_y (op : BitVec 4) (x y : RegIdx) (n : BitVec 4) :
    (wordXY op x y n).extractLsb' 4 4 = regBits y := by
  apply BitVec.eq_of_getLsbD_eq; intro k hk
  rw [BitVec.getLsbD_extractLsb', wordXY_bit]
  interval_cases k <;> simp

theorem wordXY_n (op : BitVec 4) (x y : RegIdx) (n : BitVec 4) : (wordXY op x y n).extractLsb' 0 4 = n := by
  apply BitVec.eq_of_getLsbD_eq; intro k hk
  rw [BitVec.getLsbD_extractLsb', wordXY_bit]
  interval_cases k <;> simp

@[simp] theorem opField_wordXY (op : BitVec 4) (x y : RegIdx) (n : BitVec 4) :
    opField (wordXY op x y n) = op.toNat := by
  simp [opField, wordXY_op]

@[simp] theorem xField_wordXY (op : BitVec 4) (x y : RegIdx) (n : BitVec 4) : xField (wordXY op x y n) = x := by
  simp [xField, wordXY_x]

@[simp] theorem yField_wordXY (op : BitVec 4) (x y : RegIdx) (n : BitVec 4) : yField (wordXY op x y n) = y := by
  simp [yField, wordXY_y]

@[simp] theorem nField_wordXY (op : BitVec 4) (x y : RegIdx) (n : BitVec 4) :
    nField (wordXY op x y n) = n.toNat := by
  simp [nField, wordXY_n]

/-! ### A word is its fields -/

/-- The two bytes of a word make the word again (20_memory.md R53). -/
@[simp] theorem wordOfBytes_bytes (w : Word) : wordOfBytes (w.extractLsb' 8 8) (w.extractLsb' 0 8) = w := by
  apply BitVec.eq_of_getLsbD_eq
  intro k hk
  rw [wordOfBytes_bit]
  interval_cases k <;> simp

/-- A word is its primary nibble before its low 12 bits. -/
theorem word_eq_wordA (w : Word) : w = wordA (w.extractLsb' 12 4) (nnnField w) := by
  apply BitVec.eq_of_getLsbD_eq
  intro k hk
  rw [wordA_bit]
  interval_cases k <;> simp [nnnField]

/-- A word is its primary nibble, its register-X field and its low byte. -/
theorem word_eq_wordXI (w : Word) : w = wordXI (w.extractLsb' 12 4) (xField w) (nnField w) := by
  apply BitVec.eq_of_getLsbD_eq
  intro k hk
  rw [wordXI_bit, xField, regBits_ofFin]
  interval_cases k <;> simp [nnField]

/-- A word is its four nibbles. -/
theorem word_eq_wordXY (w : Word) :
    w = wordXY (w.extractLsb' 12 4) (xField w) (yField w) (w.extractLsb' 0 4) := by
  apply BitVec.eq_of_getLsbD_eq
  intro k hk
  rw [wordXY_bit, xField, yField, regBits_ofFin, regBits_ofFin]
  interval_cases k <;> simp

end Sys2Proof
end

