-- ==== Sys2Proof/Laws/Memory.lean ====
section
/-! SUPPORT. The laws of memory: read after write, every operation keeps the canonical form, and the checked
sequences of byte accesses say once what they do. -/

namespace Sys2Proof.Machine

/-! ### Lookups -/

theorem Memory.lookup_insert (m : Memory) (a b : Nat) (v : Byte) :
    Memory.lookup (Memory.insert m a v) b = if b = a then some v else Memory.lookup m b := by
  induction m with
  | nil => simp [Memory.insert, Memory.lookup, eq_comm]
  | cons c rest ih =>
    obtain ⟨k, u⟩ := c
    by_cases h1 : a < k
    · simp [Memory.insert, h1, Memory.lookup, eq_comm]
    · by_cases h2 : a = k
      · subst h2
        by_cases hb : b = a
        · simp [Memory.insert, Memory.lookup, hb]
        · have : ¬ a = b := fun h => hb h.symm
          simp [Memory.insert, Memory.lookup, hb, this]
      · by_cases hb : k = b
        · subst hb; simp [Memory.insert, h1, h2, Memory.lookup]; omega
        · simp [Memory.insert, h1, h2, Memory.lookup, hb, ih]

theorem Memory.lookup_erase (m : Memory) (a b : Nat) :
    Memory.lookup (Memory.erase m a) b = if b = a then none else Memory.lookup m b := by
  induction m with
  | nil => simp [Memory.erase, Memory.lookup]
  | cons c rest ih =>
    obtain ⟨k, u⟩ := c
    by_cases h1 : k = a
    · subst h1
      by_cases hb : b = k
      · subst hb; simpa [Memory.erase] using ih
      · have : ¬ k = b := fun h => hb h.symm
        simp [Memory.erase, ih, hb, Memory.lookup, this]
    · by_cases hb : k = b
      · subst hb; simp [Memory.erase, Memory.lookup, h1]
      · simp [Memory.erase, h1, Memory.lookup, hb, ih]

/-- A read after a write: the value written at the address written, and what was there everywhere else
(20_memory.md R57). It holds of every list of cells, canonical or not. -/
theorem Memory.read_write (font : Vector Byte 80) (m : Memory) (a b : Nat) (v : Byte) :
    Memory.read font (Memory.write font m a v) b = if b = a then v else Memory.read font m b := by
  unfold Memory.write Memory.read
  split
  · rename_i h
    rw [Memory.lookup_erase]
    split
    · simp_all
    · rfl
  · rw [Memory.lookup_insert]
    split <;> rfl

/-! ### The canonical form -/

theorem Memory.wf_nil (font : Vector Byte 80) : Memory.wf font [] = true := by simp [Memory.wf]

theorem Memory.mem_insert {m : Memory} {a : Nat} {v : Byte} {c : Host.Cell}
    (h : c ∈ Memory.insert m a v) : c = (a, v) ∨ c ∈ m := by
  induction m with
  | nil => simpa [Memory.insert] using h
  | cons d rest ih =>
    obtain ⟨k, u⟩ := d
    by_cases h1 : a < k
    · simpa [Memory.insert, h1] using h
    · by_cases h2 : a = k
      · subst h2
        simp only [Memory.insert, lt_irrefl, if_true, if_false, List.mem_cons] at h
        rcases h with h | h
        · exact Or.inl h
        · exact Or.inr (List.mem_cons_of_mem _ h)
      · simp only [Memory.insert, h1, h2, if_false, List.mem_cons] at h
        rcases h with h | h
        · exact Or.inr (by simp [h])
        · rcases ih h with h | h
          · exact Or.inl h
          · exact Or.inr (List.mem_cons_of_mem _ h)

theorem Memory.mem_erase {m : Memory} {a : Nat} {c : Host.Cell} (h : c ∈ Memory.erase m a) : c ∈ m := by
  induction m with
  | nil => simp [Memory.erase] at h
  | cons d rest ih =>
    obtain ⟨k, u⟩ := d
    by_cases h1 : k = a
    · exact List.mem_cons_of_mem _ (ih (by simpa [Memory.erase, h1] using h))
    · simp only [Memory.erase, h1, if_false, List.mem_cons] at h
      rcases h with h | h
      · simp [h]
      · exact List.mem_cons_of_mem _ (ih h)

theorem Memory.insert_sorted {m : Memory} (a : Nat) (v : Byte)
    (h : (m.map Prod.fst).Pairwise (· < ·)) : ((Memory.insert m a v).map Prod.fst).Pairwise (· < ·) := by
  induction m with
  | nil => simp [Memory.insert]
  | cons d rest ih =>
    obtain ⟨k, u⟩ := d
    simp only [List.map_cons, List.pairwise_cons] at h
    by_cases h1 : a < k
    · simp only [Memory.insert, h1, if_true, List.map_cons, List.pairwise_cons]
      refine ⟨?_, h.1, h.2⟩
      intro b hb
      rcases List.mem_cons.mp hb with rfl | hb
      · exact h1
      · exact Nat.lt_trans h1 (h.1 b hb)
    · by_cases h2 : a = k
      · subst h2
        simpa [Memory.insert] using h
      · simp only [Memory.insert, h1, h2, if_false, List.map_cons, List.pairwise_cons]
        refine ⟨?_, ih h.2⟩
        intro b hb
        obtain ⟨c, hc, rfl⟩ := List.mem_map.mp hb
        rcases Memory.mem_insert hc with rfl | hc
        · show k < a
          omega
        · exact h.1 _ (List.mem_map.mpr ⟨c, hc, rfl⟩)

theorem Memory.erase_sorted {m : Memory} (a : Nat)
    (h : (m.map Prod.fst).Pairwise (· < ·)) : ((Memory.erase m a).map Prod.fst).Pairwise (· < ·) := by
  induction m with
  | nil => simp [Memory.erase]
  | cons d rest ih =>
    obtain ⟨k, u⟩ := d
    simp only [List.map_cons, List.pairwise_cons] at h
    by_cases h1 : k = a
    · simpa [Memory.erase, h1] using ih h.2
    · simp only [Memory.erase, h1, if_false, List.map_cons, List.pairwise_cons]
      refine ⟨?_, ih h.2⟩
      intro b hb
      obtain ⟨c, hc, rfl⟩ := List.mem_map.mp hb
      exact h.1 _ (List.mem_map.mpr ⟨c, Memory.mem_erase hc, rfl⟩)

theorem Memory.wf_iff {font : Vector Byte 80} {m : Memory} :
    Memory.wf font m = true ↔
      (m.map Prod.fst).Pairwise (· < ·) ∧ ∀ c ∈ m, c.1 < 4096 ∧ c.2 ≠ Memory.blank font c.1 := by
  simp only [Memory.wf, Bool.and_eq_true, decide_eq_true_eq, List.all_eq_true]

/-- A write inside the address space keeps the canonical form. -/
theorem Memory.write_wf {font : Vector Byte 80} {m : Memory} {a : Nat} (v : Byte)
    (h : Memory.wf font m = true) (ha : a < 4096) : Memory.wf font (Memory.write font m a v) = true := by
  rw [Memory.wf_iff] at h ⊢
  unfold Memory.write
  split
  · exact ⟨Memory.erase_sorted a h.1, fun c hc => h.2 c (Memory.mem_erase hc)⟩
  · rename_i hv
    refine ⟨Memory.insert_sorted a v h.1, fun c hc => ?_⟩
    rcases Memory.mem_insert hc with rfl | hc
    · exact ⟨ha, hv⟩
    · exact h.2 c hc

theorem Memory.writeByte_wf {font : Vector Byte 80} {m m' : Memory} {a : Nat} {v : Byte}
    (h : Memory.wf font m = true) (hw : Memory.writeByte font m a v = some m') : Memory.wf font m' = true := by
  unfold Memory.writeByte at hw
  split at hw
  · rw [← Option.some.inj hw]; exact Memory.write_wf v h (by omega)
  · cases hw

theorem Memory.copyIn_wf {font : Vector Byte 80} (bytes : List Byte) : ∀ {m : Memory} {a : Nat},
    Memory.wf font m = true → a + bytes.length ≤ 4096 → Memory.wf font (Memory.copyIn font m a bytes) = true := by
  induction bytes with
  | nil => intro m a h _; simpa [Memory.copyIn] using h
  | cons b bs ih =>
    intro m a h hl
    simp only [List.length_cons] at hl
    exact ih (Memory.write_wf b h (by omega)) (by omega)

/-! ### Sequences of byte accesses (R54) -/

/-- The checked writes land exactly when every address is in range, and then they are the plain copy. -/
theorem Memory.writeBytes_eq (font : Vector Byte 80) (bytes : List Byte) : ∀ (m : Memory) (a : Nat),
    Memory.writeBytes font m a bytes =
      if bytes.length = 0 ∨ a + bytes.length ≤ 4096 then some (Memory.copyIn font m a bytes) else none := by
  induction bytes with
  | nil => intro m a; simp [Memory.writeBytes, Memory.copyIn]
  | cons b bs ih =>
    intro m a
    simp only [Memory.writeBytes, Memory.writeByte, Memory.copyIn, List.length_cons, ih]
    by_cases ha : a ≤ 0xFFF
    · simp only [ha, if_true]
      congr 1
      simp only [eq_iff_iff]; omega
    · have : ¬ (bs.length + 1 = 0 ∨ a + (bs.length + 1) ≤ 4096) := by omega
      simp only [ha, this, if_false]

theorem Memory.writeBytes_wf {font : Vector Byte 80} {bytes : List Byte} {m m' : Memory} {a : Nat}
    (h : Memory.wf font m = true) (hw : Memory.writeBytes font m a bytes = some m') :
    Memory.wf font m' = true := by
  rw [Memory.writeBytes_eq] at hw
  split at hw
  · rename_i hr
    rw [← Option.some.inj hw]
    rcases hr with hr | hr
    · rw [List.length_eq_zero_iff.mp hr]; simpa [Memory.copyIn] using h
    · exact Memory.copyIn_wf bytes h hr
  · cases hw

/-- The checked reads answer exactly when every address is in range, and then the bytes in order. -/
theorem Memory.readBytes_eq (font : Vector Byte 80) (m : Memory) (n : Nat) : ∀ a : Nat,
    Memory.readBytes font m a n =
      if n = 0 ∨ a + n ≤ 4096 then some ((List.range n).map fun k => Memory.read font m (a + k)) else none := by
  induction n with
  | zero => intro a; simp [Memory.readBytes]
  | succ n ih =>
    intro a
    simp only [Memory.readBytes, Memory.readByte, ih]
    by_cases ha : a ≤ 0xFFF
    · by_cases hn : n = 0 ∨ a + 1 + n ≤ 4096
      · have : n + 1 = 0 ∨ a + (n + 1) ≤ 4096 := by omega
        simp only [ha, hn, this, if_true, List.range_succ_eq_map, List.map_cons, List.map_map, Nat.add_zero,
          Option.some.injEq, List.cons.injEq, true_and]
        apply List.map_congr_left
        intro k _
        simp only [Function.comp, Nat.succ_eq_add_one]
        congr 1
        omega
      · have : ¬ (n + 1 = 0 ∨ a + (n + 1) ≤ 4096) := by omega
        simp only [ha, hn, this, if_true, if_false]
    · have : ¬ (n + 1 = 0 ∨ a + (n + 1) ≤ 4096) := by omega
      simp only [ha, this, if_false]

/-- What a copy leaves at every address: the byte copied there, or what was there. -/
theorem Memory.read_copyIn (font : Vector Byte 80) (bytes : List Byte) : ∀ (m : Memory) (a b : Nat),
    Memory.read font (Memory.copyIn font m a bytes) b =
      if a ≤ b then bytes.getD (b - a) (Memory.read font m b) else Memory.read font m b := by
  induction bytes with
  | nil => intro m a b; simp [Memory.copyIn]
  | cons c cs ih =>
    intro m a b
    simp only [Memory.copyIn, ih, Memory.read_write]
    by_cases h1 : b = a
    · subst h1; simp
    · by_cases h2 : a + 1 ≤ b
      · have h3 : a ≤ b := by omega
        have h4 : b - a = (b - (a + 1)) + 1 := by omega
        simp [h1, h2, h3, h4]
      · have h3 : ¬ a ≤ b := by omega
        simp [h1, h2, h3]

end Sys2Proof.Machine
end

