-- ==== Sys2Proof/Laws/State.lean ====
section
/-! SUPPORT. What every update of the state leaves in every field, so that no later proof unfolds one. -/

namespace Sys2Proof.Machine

/-! ### `State.setV` -/

@[simp] theorem State.setV_mem (x : RegIdx) (b : Byte) (s : State) : (s.setV x b).mem = s.mem := rfl
@[simp] theorem State.setV_v (x : RegIdx) (b : Byte) (s : State) : (s.setV x b).v = s.v.set x b := rfl
@[simp] theorem State.setV_i (x : RegIdx) (b : Byte) (s : State) : (s.setV x b).i = s.i := rfl
@[simp] theorem State.setV_pc (x : RegIdx) (b : Byte) (s : State) : (s.setV x b).pc = s.pc := rfl
@[simp] theorem State.setV_stack (x : RegIdx) (b : Byte) (s : State) : (s.setV x b).stack = s.stack := rfl
@[simp] theorem State.setV_sp (x : RegIdx) (b : Byte) (s : State) : (s.setV x b).sp = s.sp := rfl
@[simp] theorem State.setV_dt (x : RegIdx) (b : Byte) (s : State) : (s.setV x b).dt = s.dt := rfl
@[simp] theorem State.setV_st (x : RegIdx) (b : Byte) (s : State) : (s.setV x b).st = s.st := rfl
@[simp] theorem State.setV_key (x : RegIdx) (b : Byte) (s : State) : (s.setV x b).key = s.key := rfl
@[simp] theorem State.setV_disp (x : RegIdx) (b : Byte) (s : State) : (s.setV x b).disp = s.disp := rfl
@[simp] theorem State.setV_dirty (x : RegIdx) (b : Byte) (s : State) : (s.setV x b).dirty = s.dirty := rfl
@[simp] theorem State.setV_blocked (x : RegIdx) (b : Byte) (s : State) : (s.setV x b).blocked = s.blocked := rfl
@[simp] theorem State.setV_ktarget (x : RegIdx) (b : Byte) (s : State) : (s.setV x b).ktarget = s.ktarget := rfl
@[simp] theorem State.setV_halted (x : RegIdx) (b : Byte) (s : State) : (s.setV x b).halted = s.halted := rfl
@[simp] theorem State.setV_cause (x : RegIdx) (b : Byte) (s : State) : (s.setV x b).cause = s.cause := rfl
@[simp] theorem State.setV_unk (x : RegIdx) (b : Byte) (s : State) : (s.setV x b).unk = s.unk := rfl
@[simp] theorem State.setV_font (x : RegIdx) (b : Byte) (s : State) : (s.setV x b).font = s.font := rfl
@[simp] theorem State.setV_rnd (x : RegIdx) (b : Byte) (s : State) : (s.setV x b).rnd = s.rnd := rfl
@[simp] theorem State.setV_draws (x : RegIdx) (b : Byte) (s : State) : (s.setV x b).draws = s.draws := rfl
@[simp] theorem State.setV_pending (x : RegIdx) (b : Byte) (s : State) : (s.setV x b).pending = s.pending := rfl
@[simp] theorem State.setV_output (x : RegIdx) (b : Byte) (s : State) : (s.setV x b).output = s.output := rfl

/-! ### `State.advance` -/

@[simp] theorem State.advance_mem (s : State) : s.advance.mem = s.mem := rfl
@[simp] theorem State.advance_v (s : State) : s.advance.v = s.v := rfl
@[simp] theorem State.advance_i (s : State) : s.advance.i = s.i := rfl
@[simp] theorem State.advance_pc (s : State) : s.advance.pc = s.pc + 2 := rfl
@[simp] theorem State.advance_stack (s : State) : s.advance.stack = s.stack := rfl
@[simp] theorem State.advance_sp (s : State) : s.advance.sp = s.sp := rfl
@[simp] theorem State.advance_dt (s : State) : s.advance.dt = s.dt := rfl
@[simp] theorem State.advance_st (s : State) : s.advance.st = s.st := rfl
@[simp] theorem State.advance_key (s : State) : s.advance.key = s.key := rfl
@[simp] theorem State.advance_disp (s : State) : s.advance.disp = s.disp := rfl
@[simp] theorem State.advance_dirty (s : State) : s.advance.dirty = s.dirty := rfl
@[simp] theorem State.advance_blocked (s : State) : s.advance.blocked = s.blocked := rfl
@[simp] theorem State.advance_ktarget (s : State) : s.advance.ktarget = s.ktarget := rfl
@[simp] theorem State.advance_halted (s : State) : s.advance.halted = s.halted := rfl
@[simp] theorem State.advance_cause (s : State) : s.advance.cause = s.cause := rfl
@[simp] theorem State.advance_unk (s : State) : s.advance.unk = s.unk := rfl
@[simp] theorem State.advance_font (s : State) : s.advance.font = s.font := rfl
@[simp] theorem State.advance_rnd (s : State) : s.advance.rnd = s.rnd := rfl
@[simp] theorem State.advance_draws (s : State) : s.advance.draws = s.draws := rfl
@[simp] theorem State.advance_pending (s : State) : s.advance.pending = s.pending := rfl
@[simp] theorem State.advance_output (s : State) : s.advance.output = s.output := rfl

/-! ### `State.skipIf` -/

@[simp] theorem State.skipIf_mem (c : Bool) (s : State) : (s.skipIf c).mem = s.mem := rfl
@[simp] theorem State.skipIf_v (c : Bool) (s : State) : (s.skipIf c).v = s.v := rfl
@[simp] theorem State.skipIf_i (c : Bool) (s : State) : (s.skipIf c).i = s.i := rfl
@[simp] theorem State.skipIf_pc (c : Bool) (s : State) : (s.skipIf c).pc = if c then s.pc + 4 else s.pc + 2 := rfl
@[simp] theorem State.skipIf_stack (c : Bool) (s : State) : (s.skipIf c).stack = s.stack := rfl
@[simp] theorem State.skipIf_sp (c : Bool) (s : State) : (s.skipIf c).sp = s.sp := rfl
@[simp] theorem State.skipIf_dt (c : Bool) (s : State) : (s.skipIf c).dt = s.dt := rfl
@[simp] theorem State.skipIf_st (c : Bool) (s : State) : (s.skipIf c).st = s.st := rfl
@[simp] theorem State.skipIf_key (c : Bool) (s : State) : (s.skipIf c).key = s.key := rfl
@[simp] theorem State.skipIf_disp (c : Bool) (s : State) : (s.skipIf c).disp = s.disp := rfl
@[simp] theorem State.skipIf_dirty (c : Bool) (s : State) : (s.skipIf c).dirty = s.dirty := rfl
@[simp] theorem State.skipIf_blocked (c : Bool) (s : State) : (s.skipIf c).blocked = s.blocked := rfl
@[simp] theorem State.skipIf_ktarget (c : Bool) (s : State) : (s.skipIf c).ktarget = s.ktarget := rfl
@[simp] theorem State.skipIf_halted (c : Bool) (s : State) : (s.skipIf c).halted = s.halted := rfl
@[simp] theorem State.skipIf_cause (c : Bool) (s : State) : (s.skipIf c).cause = s.cause := rfl
@[simp] theorem State.skipIf_unk (c : Bool) (s : State) : (s.skipIf c).unk = s.unk := rfl
@[simp] theorem State.skipIf_font (c : Bool) (s : State) : (s.skipIf c).font = s.font := rfl
@[simp] theorem State.skipIf_rnd (c : Bool) (s : State) : (s.skipIf c).rnd = s.rnd := rfl
@[simp] theorem State.skipIf_draws (c : Bool) (s : State) : (s.skipIf c).draws = s.draws := rfl
@[simp] theorem State.skipIf_pending (c : Bool) (s : State) : (s.skipIf c).pending = s.pending := rfl
@[simp] theorem State.skipIf_output (c : Bool) (s : State) : (s.skipIf c).output = s.output := rfl

/-! ### `State.raise` -/

@[simp] theorem State.raise_mem (f : Fault) (s : State) : (s.raise f).mem = s.mem := rfl
@[simp] theorem State.raise_v (f : Fault) (s : State) : (s.raise f).v = s.v := rfl
@[simp] theorem State.raise_i (f : Fault) (s : State) : (s.raise f).i = s.i := rfl
@[simp] theorem State.raise_pc (f : Fault) (s : State) : (s.raise f).pc = s.pc := rfl
@[simp] theorem State.raise_stack (f : Fault) (s : State) : (s.raise f).stack = s.stack := rfl
@[simp] theorem State.raise_sp (f : Fault) (s : State) : (s.raise f).sp = s.sp := rfl
@[simp] theorem State.raise_dt (f : Fault) (s : State) : (s.raise f).dt = s.dt := rfl
@[simp] theorem State.raise_st (f : Fault) (s : State) : (s.raise f).st = s.st := rfl
@[simp] theorem State.raise_key (f : Fault) (s : State) : (s.raise f).key = s.key := rfl
@[simp] theorem State.raise_disp (f : Fault) (s : State) : (s.raise f).disp = s.disp := rfl
@[simp] theorem State.raise_dirty (f : Fault) (s : State) : (s.raise f).dirty = s.dirty := rfl
@[simp] theorem State.raise_blocked (f : Fault) (s : State) : (s.raise f).blocked = s.blocked := rfl
@[simp] theorem State.raise_ktarget (f : Fault) (s : State) : (s.raise f).ktarget = s.ktarget := rfl
@[simp] theorem State.raise_halted (f : Fault) (s : State) : (s.raise f).halted = true := rfl
@[simp] theorem State.raise_cause (f : Fault) (s : State) : (s.raise f).cause = f.code := rfl
@[simp] theorem State.raise_unk (f : Fault) (s : State) : (s.raise f).unk = s.unk := rfl
@[simp] theorem State.raise_font (f : Fault) (s : State) : (s.raise f).font = s.font := rfl
@[simp] theorem State.raise_rnd (f : Fault) (s : State) : (s.raise f).rnd = s.rnd := rfl
@[simp] theorem State.raise_draws (f : Fault) (s : State) : (s.raise f).draws = s.draws := rfl
@[simp] theorem State.raise_pending (f : Fault) (s : State) : (s.raise f).pending = s.pending := rfl
@[simp] theorem State.raise_output (f : Fault) (s : State) : (s.raise f).output = .report (.raised f) := rfl

/-! ### `State.unknownOpcode` -/

@[simp] theorem State.unknownOpcode_mem (s : State) : s.unknownOpcode.mem = s.mem := rfl
@[simp] theorem State.unknownOpcode_v (s : State) : s.unknownOpcode.v = s.v := rfl
@[simp] theorem State.unknownOpcode_i (s : State) : s.unknownOpcode.i = s.i := rfl
@[simp] theorem State.unknownOpcode_pc (s : State) : s.unknownOpcode.pc = s.pc + 2 := rfl
@[simp] theorem State.unknownOpcode_stack (s : State) : s.unknownOpcode.stack = s.stack := rfl
@[simp] theorem State.unknownOpcode_sp (s : State) : s.unknownOpcode.sp = s.sp := rfl
@[simp] theorem State.unknownOpcode_dt (s : State) : s.unknownOpcode.dt = s.dt := rfl
@[simp] theorem State.unknownOpcode_st (s : State) : s.unknownOpcode.st = s.st := rfl
@[simp] theorem State.unknownOpcode_key (s : State) : s.unknownOpcode.key = s.key := rfl
@[simp] theorem State.unknownOpcode_disp (s : State) : s.unknownOpcode.disp = s.disp := rfl
@[simp] theorem State.unknownOpcode_dirty (s : State) : s.unknownOpcode.dirty = s.dirty := rfl
@[simp] theorem State.unknownOpcode_blocked (s : State) : s.unknownOpcode.blocked = s.blocked := rfl
@[simp] theorem State.unknownOpcode_ktarget (s : State) : s.unknownOpcode.ktarget = s.ktarget := rfl
@[simp] theorem State.unknownOpcode_halted (s : State) : s.unknownOpcode.halted = s.halted := rfl
@[simp] theorem State.unknownOpcode_cause (s : State) : s.unknownOpcode.cause = s.cause := rfl
@[simp] theorem State.unknownOpcode_unk (s : State) : s.unknownOpcode.unk = true := rfl
@[simp] theorem State.unknownOpcode_font (s : State) : s.unknownOpcode.font = s.font := rfl
@[simp] theorem State.unknownOpcode_rnd (s : State) : s.unknownOpcode.rnd = s.rnd := rfl
@[simp] theorem State.unknownOpcode_draws (s : State) : s.unknownOpcode.draws = s.draws := rfl
@[simp] theorem State.unknownOpcode_pending (s : State) : s.unknownOpcode.pending = s.pending := rfl
@[simp] theorem State.unknownOpcode_output (s : State) : s.unknownOpcode.output = .report .unknownOpcode := rfl

/-! ### `State.idle` -/

@[simp] theorem State.idle_mem (s : State) : s.idle.mem = s.mem := rfl
@[simp] theorem State.idle_v (s : State) : s.idle.v = s.v := rfl
@[simp] theorem State.idle_i (s : State) : s.idle.i = s.i := rfl
@[simp] theorem State.idle_pc (s : State) : s.idle.pc = s.pc := rfl
@[simp] theorem State.idle_stack (s : State) : s.idle.stack = s.stack := rfl
@[simp] theorem State.idle_sp (s : State) : s.idle.sp = s.sp := rfl
@[simp] theorem State.idle_dt (s : State) : s.idle.dt = s.dt := rfl
@[simp] theorem State.idle_st (s : State) : s.idle.st = s.st := rfl
@[simp] theorem State.idle_key (s : State) : s.idle.key = s.key := rfl
@[simp] theorem State.idle_disp (s : State) : s.idle.disp = s.disp := rfl
@[simp] theorem State.idle_dirty (s : State) : s.idle.dirty = s.dirty := rfl
@[simp] theorem State.idle_blocked (s : State) : s.idle.blocked = s.blocked := rfl
@[simp] theorem State.idle_ktarget (s : State) : s.idle.ktarget = s.ktarget := rfl
@[simp] theorem State.idle_halted (s : State) : s.idle.halted = s.halted := rfl
@[simp] theorem State.idle_cause (s : State) : s.idle.cause = s.cause := rfl
@[simp] theorem State.idle_unk (s : State) : s.idle.unk = s.unk := rfl
@[simp] theorem State.idle_font (s : State) : s.idle.font = s.font := rfl
@[simp] theorem State.idle_rnd (s : State) : s.idle.rnd = s.rnd := rfl
@[simp] theorem State.idle_draws (s : State) : s.idle.draws = s.draws := rfl
@[simp] theorem State.idle_pending (s : State) : s.idle.pending = s.pending := rfl
@[simp] theorem State.idle_output (s : State) : s.idle.output = .report .idle := rfl

/-! ### `State.beginStep` -/

@[simp] theorem State.beginStep_mem (rnd : Byte) (s : State) : (s.beginStep rnd).mem = s.mem := rfl
@[simp] theorem State.beginStep_v (rnd : Byte) (s : State) : (s.beginStep rnd).v = s.v := rfl
@[simp] theorem State.beginStep_i (rnd : Byte) (s : State) : (s.beginStep rnd).i = s.i := rfl
@[simp] theorem State.beginStep_pc (rnd : Byte) (s : State) : (s.beginStep rnd).pc = s.pc := rfl
@[simp] theorem State.beginStep_stack (rnd : Byte) (s : State) : (s.beginStep rnd).stack = s.stack := rfl
@[simp] theorem State.beginStep_sp (rnd : Byte) (s : State) : (s.beginStep rnd).sp = s.sp := rfl
@[simp] theorem State.beginStep_dt (rnd : Byte) (s : State) : (s.beginStep rnd).dt = s.dt := rfl
@[simp] theorem State.beginStep_st (rnd : Byte) (s : State) : (s.beginStep rnd).st = s.st := rfl
@[simp] theorem State.beginStep_key (rnd : Byte) (s : State) : (s.beginStep rnd).key = s.key := rfl
@[simp] theorem State.beginStep_disp (rnd : Byte) (s : State) : (s.beginStep rnd).disp = s.disp := rfl
@[simp] theorem State.beginStep_dirty (rnd : Byte) (s : State) : (s.beginStep rnd).dirty = s.dirty := rfl
@[simp] theorem State.beginStep_blocked (rnd : Byte) (s : State) : (s.beginStep rnd).blocked = s.blocked := rfl
@[simp] theorem State.beginStep_ktarget (rnd : Byte) (s : State) : (s.beginStep rnd).ktarget = s.ktarget := rfl
@[simp] theorem State.beginStep_halted (rnd : Byte) (s : State) : (s.beginStep rnd).halted = s.halted := rfl
@[simp] theorem State.beginStep_cause (rnd : Byte) (s : State) : (s.beginStep rnd).cause = s.cause := rfl
@[simp] theorem State.beginStep_unk (rnd : Byte) (s : State) : (s.beginStep rnd).unk = s.unk := rfl
@[simp] theorem State.beginStep_font (rnd : Byte) (s : State) : (s.beginStep rnd).font = s.font := rfl
@[simp] theorem State.beginStep_rnd (rnd : Byte) (s : State) : (s.beginStep rnd).rnd = rnd := rfl
@[simp] theorem State.beginStep_draws (rnd : Byte) (s : State) : (s.beginStep rnd).draws = s.draws := rfl
@[simp] theorem State.beginStep_pending (rnd : Byte) (s : State) : (s.beginStep rnd).pending = s.pending := rfl
@[simp] theorem State.beginStep_output (rnd : Byte) (s : State) : (s.beginStep rnd).output = .report .ok := rfl

/-! ### `State.setFlagThen` -/

@[simp] theorem State.setFlagThen_mem (c : Bool) (x : RegIdx) (b : Byte) (s : State) : (s.setFlagThen c x b).mem = s.mem := rfl
@[simp] theorem State.setFlagThen_v (c : Bool) (x : RegIdx) (b : Byte) (s : State) : (s.setFlagThen c x b).v = (s.v.set VF (flagByte c)).set x b := rfl
@[simp] theorem State.setFlagThen_i (c : Bool) (x : RegIdx) (b : Byte) (s : State) : (s.setFlagThen c x b).i = s.i := rfl
@[simp] theorem State.setFlagThen_pc (c : Bool) (x : RegIdx) (b : Byte) (s : State) : (s.setFlagThen c x b).pc = s.pc := rfl
@[simp] theorem State.setFlagThen_stack (c : Bool) (x : RegIdx) (b : Byte) (s : State) : (s.setFlagThen c x b).stack = s.stack := rfl
@[simp] theorem State.setFlagThen_sp (c : Bool) (x : RegIdx) (b : Byte) (s : State) : (s.setFlagThen c x b).sp = s.sp := rfl
@[simp] theorem State.setFlagThen_dt (c : Bool) (x : RegIdx) (b : Byte) (s : State) : (s.setFlagThen c x b).dt = s.dt := rfl
@[simp] theorem State.setFlagThen_st (c : Bool) (x : RegIdx) (b : Byte) (s : State) : (s.setFlagThen c x b).st = s.st := rfl
@[simp] theorem State.setFlagThen_key (c : Bool) (x : RegIdx) (b : Byte) (s : State) : (s.setFlagThen c x b).key = s.key := rfl
@[simp] theorem State.setFlagThen_disp (c : Bool) (x : RegIdx) (b : Byte) (s : State) : (s.setFlagThen c x b).disp = s.disp := rfl
@[simp] theorem State.setFlagThen_dirty (c : Bool) (x : RegIdx) (b : Byte) (s : State) : (s.setFlagThen c x b).dirty = s.dirty := rfl
@[simp] theorem State.setFlagThen_blocked (c : Bool) (x : RegIdx) (b : Byte) (s : State) : (s.setFlagThen c x b).blocked = s.blocked := rfl
@[simp] theorem State.setFlagThen_ktarget (c : Bool) (x : RegIdx) (b : Byte) (s : State) : (s.setFlagThen c x b).ktarget = s.ktarget := rfl
@[simp] theorem State.setFlagThen_halted (c : Bool) (x : RegIdx) (b : Byte) (s : State) : (s.setFlagThen c x b).halted = s.halted := rfl
@[simp] theorem State.setFlagThen_cause (c : Bool) (x : RegIdx) (b : Byte) (s : State) : (s.setFlagThen c x b).cause = s.cause := rfl
@[simp] theorem State.setFlagThen_unk (c : Bool) (x : RegIdx) (b : Byte) (s : State) : (s.setFlagThen c x b).unk = s.unk := rfl
@[simp] theorem State.setFlagThen_font (c : Bool) (x : RegIdx) (b : Byte) (s : State) : (s.setFlagThen c x b).font = s.font := rfl
@[simp] theorem State.setFlagThen_rnd (c : Bool) (x : RegIdx) (b : Byte) (s : State) : (s.setFlagThen c x b).rnd = s.rnd := rfl
@[simp] theorem State.setFlagThen_draws (c : Bool) (x : RegIdx) (b : Byte) (s : State) : (s.setFlagThen c x b).draws = s.draws := rfl
@[simp] theorem State.setFlagThen_pending (c : Bool) (x : RegIdx) (b : Byte) (s : State) : (s.setFlagThen c x b).pending = s.pending := rfl
@[simp] theorem State.setFlagThen_output (c : Bool) (x : RegIdx) (b : Byte) (s : State) : (s.setFlagThen c x b).output = s.output := rfl

/-! ### `State.bumpIndex` -/

@[simp] theorem State.bumpIndex_mem (x : RegIdx) (s : State) : (s.bumpIndex x).mem = s.mem := rfl
@[simp] theorem State.bumpIndex_v (x : RegIdx) (s : State) : (s.bumpIndex x).v = s.v := rfl
@[simp] theorem State.bumpIndex_i (x : RegIdx) (s : State) : (s.bumpIndex x).i = s.i + BitVec.ofNat 16 (x.val + 1) := rfl
@[simp] theorem State.bumpIndex_pc (x : RegIdx) (s : State) : (s.bumpIndex x).pc = s.pc := rfl
@[simp] theorem State.bumpIndex_stack (x : RegIdx) (s : State) : (s.bumpIndex x).stack = s.stack := rfl
@[simp] theorem State.bumpIndex_sp (x : RegIdx) (s : State) : (s.bumpIndex x).sp = s.sp := rfl
@[simp] theorem State.bumpIndex_dt (x : RegIdx) (s : State) : (s.bumpIndex x).dt = s.dt := rfl
@[simp] theorem State.bumpIndex_st (x : RegIdx) (s : State) : (s.bumpIndex x).st = s.st := rfl
@[simp] theorem State.bumpIndex_key (x : RegIdx) (s : State) : (s.bumpIndex x).key = s.key := rfl
@[simp] theorem State.bumpIndex_disp (x : RegIdx) (s : State) : (s.bumpIndex x).disp = s.disp := rfl
@[simp] theorem State.bumpIndex_dirty (x : RegIdx) (s : State) : (s.bumpIndex x).dirty = s.dirty := rfl
@[simp] theorem State.bumpIndex_blocked (x : RegIdx) (s : State) : (s.bumpIndex x).blocked = s.blocked := rfl
@[simp] theorem State.bumpIndex_ktarget (x : RegIdx) (s : State) : (s.bumpIndex x).ktarget = s.ktarget := rfl
@[simp] theorem State.bumpIndex_halted (x : RegIdx) (s : State) : (s.bumpIndex x).halted = s.halted := rfl
@[simp] theorem State.bumpIndex_cause (x : RegIdx) (s : State) : (s.bumpIndex x).cause = s.cause := rfl
@[simp] theorem State.bumpIndex_unk (x : RegIdx) (s : State) : (s.bumpIndex x).unk = s.unk := rfl
@[simp] theorem State.bumpIndex_font (x : RegIdx) (s : State) : (s.bumpIndex x).font = s.font := rfl
@[simp] theorem State.bumpIndex_rnd (x : RegIdx) (s : State) : (s.bumpIndex x).rnd = s.rnd := rfl
@[simp] theorem State.bumpIndex_draws (x : RegIdx) (s : State) : (s.bumpIndex x).draws = s.draws := rfl
@[simp] theorem State.bumpIndex_pending (x : RegIdx) (s : State) : (s.bumpIndex x).pending = s.pending := rfl
@[simp] theorem State.bumpIndex_output (x : RegIdx) (s : State) : (s.bumpIndex x).output = s.output := rfl

/-! ### `State.drawn` -/

@[simp] theorem State.drawn_mem (b : Blit) (s : State) : (s.drawn b).mem = s.mem := rfl
@[simp] theorem State.drawn_v (b : Blit) (s : State) : (s.drawn b).v = s.v.set VF (flagByte b.collision) := rfl
@[simp] theorem State.drawn_i (b : Blit) (s : State) : (s.drawn b).i = s.i := rfl
@[simp] theorem State.drawn_pc (b : Blit) (s : State) : (s.drawn b).pc = s.pc := rfl
@[simp] theorem State.drawn_stack (b : Blit) (s : State) : (s.drawn b).stack = s.stack := rfl
@[simp] theorem State.drawn_sp (b : Blit) (s : State) : (s.drawn b).sp = s.sp := rfl
@[simp] theorem State.drawn_dt (b : Blit) (s : State) : (s.drawn b).dt = s.dt := rfl
@[simp] theorem State.drawn_st (b : Blit) (s : State) : (s.drawn b).st = s.st := rfl
@[simp] theorem State.drawn_key (b : Blit) (s : State) : (s.drawn b).key = s.key := rfl
@[simp] theorem State.drawn_disp (b : Blit) (s : State) : (s.drawn b).disp = b.disp := rfl
@[simp] theorem State.drawn_dirty (b : Blit) (s : State) : (s.drawn b).dirty = (s.dirty || b.changed) := rfl
@[simp] theorem State.drawn_blocked (b : Blit) (s : State) : (s.drawn b).blocked = s.blocked := rfl
@[simp] theorem State.drawn_ktarget (b : Blit) (s : State) : (s.drawn b).ktarget = s.ktarget := rfl
@[simp] theorem State.drawn_halted (b : Blit) (s : State) : (s.drawn b).halted = s.halted := rfl
@[simp] theorem State.drawn_cause (b : Blit) (s : State) : (s.drawn b).cause = s.cause := rfl
@[simp] theorem State.drawn_unk (b : Blit) (s : State) : (s.drawn b).unk = s.unk := rfl
@[simp] theorem State.drawn_font (b : Blit) (s : State) : (s.drawn b).font = s.font := rfl
@[simp] theorem State.drawn_rnd (b : Blit) (s : State) : (s.drawn b).rnd = s.rnd := rfl
@[simp] theorem State.drawn_draws (b : Blit) (s : State) : (s.drawn b).draws = s.draws := rfl
@[simp] theorem State.drawn_pending (b : Blit) (s : State) : (s.drawn b).pending = s.pending := rfl
@[simp] theorem State.drawn_output (b : Blit) (s : State) : (s.drawn b).output = s.output := rfl

/-! ### `State.readyToStep` -/

@[simp] theorem State.readyToStep_mem (s : State) : s.readyToStep.mem = s.mem := rfl
@[simp] theorem State.readyToStep_v (s : State) : s.readyToStep.v = s.v := rfl
@[simp] theorem State.readyToStep_i (s : State) : s.readyToStep.i = s.i := rfl
@[simp] theorem State.readyToStep_pc (s : State) : s.readyToStep.pc = s.pc := rfl
@[simp] theorem State.readyToStep_stack (s : State) : s.readyToStep.stack = s.stack := rfl
@[simp] theorem State.readyToStep_sp (s : State) : s.readyToStep.sp = s.sp := rfl
@[simp] theorem State.readyToStep_dt (s : State) : s.readyToStep.dt = s.dt := rfl
@[simp] theorem State.readyToStep_st (s : State) : s.readyToStep.st = s.st := rfl
@[simp] theorem State.readyToStep_key (s : State) : s.readyToStep.key = s.key := rfl
@[simp] theorem State.readyToStep_disp (s : State) : s.readyToStep.disp = s.disp := rfl
@[simp] theorem State.readyToStep_dirty (s : State) : s.readyToStep.dirty = s.dirty := rfl
@[simp] theorem State.readyToStep_blocked (s : State) : s.readyToStep.blocked = false := rfl
@[simp] theorem State.readyToStep_ktarget (s : State) : s.readyToStep.ktarget = s.ktarget := rfl
@[simp] theorem State.readyToStep_halted (s : State) : s.readyToStep.halted = false := rfl
@[simp] theorem State.readyToStep_cause (s : State) : s.readyToStep.cause = s.cause := rfl
@[simp] theorem State.readyToStep_unk (s : State) : s.readyToStep.unk = s.unk := rfl
@[simp] theorem State.readyToStep_font (s : State) : s.readyToStep.font = s.font := rfl
@[simp] theorem State.readyToStep_rnd (s : State) : s.readyToStep.rnd = s.rnd := rfl
@[simp] theorem State.readyToStep_draws (s : State) : s.readyToStep.draws = s.draws := rfl
@[simp] theorem State.readyToStep_pending (s : State) : s.readyToStep.pending = [] := rfl
@[simp] theorem State.readyToStep_output (s : State) : s.readyToStep.output = s.output := rfl

/-! ### `State.onTick` -/

@[simp] theorem State.onTick_mem (s : State) : s.onTick.mem = s.mem := rfl
@[simp] theorem State.onTick_v (s : State) : s.onTick.v = s.v := rfl
@[simp] theorem State.onTick_i (s : State) : s.onTick.i = s.i := rfl
@[simp] theorem State.onTick_pc (s : State) : s.onTick.pc = s.pc := rfl
@[simp] theorem State.onTick_stack (s : State) : s.onTick.stack = s.stack := rfl
@[simp] theorem State.onTick_sp (s : State) : s.onTick.sp = s.sp := rfl
@[simp] theorem State.onTick_dt (s : State) : s.onTick.dt = countDown s.dt := rfl
@[simp] theorem State.onTick_st (s : State) : s.onTick.st = countDown s.st := rfl
@[simp] theorem State.onTick_key (s : State) : s.onTick.key = s.key := rfl
@[simp] theorem State.onTick_disp (s : State) : s.onTick.disp = s.disp := rfl
@[simp] theorem State.onTick_dirty (s : State) : s.onTick.dirty = s.dirty := rfl
@[simp] theorem State.onTick_blocked (s : State) : s.onTick.blocked = s.blocked := rfl
@[simp] theorem State.onTick_ktarget (s : State) : s.onTick.ktarget = s.ktarget := rfl
@[simp] theorem State.onTick_halted (s : State) : s.onTick.halted = s.halted := rfl
@[simp] theorem State.onTick_cause (s : State) : s.onTick.cause = s.cause := rfl
@[simp] theorem State.onTick_unk (s : State) : s.onTick.unk = s.unk := rfl
@[simp] theorem State.onTick_font (s : State) : s.onTick.font = s.font := rfl
@[simp] theorem State.onTick_rnd (s : State) : s.onTick.rnd = s.rnd := rfl
@[simp] theorem State.onTick_draws (s : State) : s.onTick.draws = s.draws := rfl
@[simp] theorem State.onTick_pending (s : State) : s.onTick.pending = s.pending := rfl
@[simp] theorem State.onTick_output (s : State) : s.onTick.output = .none := rfl

/-! ### `State.onLoad`: the fields it leaves alone -/

@[simp] theorem State.onLoad_v (bytes : List Byte) (s : State) : (s.onLoad bytes).v = s.v := by
  unfold State.onLoad; split <;> rfl
@[simp] theorem State.onLoad_i (bytes : List Byte) (s : State) : (s.onLoad bytes).i = s.i := by
  unfold State.onLoad; split <;> rfl
@[simp] theorem State.onLoad_pc (bytes : List Byte) (s : State) : (s.onLoad bytes).pc = s.pc := by
  unfold State.onLoad; split <;> rfl
@[simp] theorem State.onLoad_stack (bytes : List Byte) (s : State) : (s.onLoad bytes).stack = s.stack := by
  unfold State.onLoad; split <;> rfl
@[simp] theorem State.onLoad_sp (bytes : List Byte) (s : State) : (s.onLoad bytes).sp = s.sp := by
  unfold State.onLoad; split <;> rfl
@[simp] theorem State.onLoad_dt (bytes : List Byte) (s : State) : (s.onLoad bytes).dt = s.dt := by
  unfold State.onLoad; split <;> rfl
@[simp] theorem State.onLoad_st (bytes : List Byte) (s : State) : (s.onLoad bytes).st = s.st := by
  unfold State.onLoad; split <;> rfl
@[simp] theorem State.onLoad_key (bytes : List Byte) (s : State) : (s.onLoad bytes).key = s.key := by
  unfold State.onLoad; split <;> rfl
@[simp] theorem State.onLoad_disp (bytes : List Byte) (s : State) : (s.onLoad bytes).disp = s.disp := by
  unfold State.onLoad; split <;> rfl
@[simp] theorem State.onLoad_dirty (bytes : List Byte) (s : State) : (s.onLoad bytes).dirty = s.dirty := by
  unfold State.onLoad; split <;> rfl
@[simp] theorem State.onLoad_blocked (bytes : List Byte) (s : State) : (s.onLoad bytes).blocked = s.blocked := by
  unfold State.onLoad; split <;> rfl
@[simp] theorem State.onLoad_ktarget (bytes : List Byte) (s : State) : (s.onLoad bytes).ktarget = s.ktarget := by
  unfold State.onLoad; split <;> rfl
@[simp] theorem State.onLoad_halted (bytes : List Byte) (s : State) : (s.onLoad bytes).halted = s.halted := by
  unfold State.onLoad; split <;> rfl
@[simp] theorem State.onLoad_cause (bytes : List Byte) (s : State) : (s.onLoad bytes).cause = s.cause := by
  unfold State.onLoad; split <;> rfl
@[simp] theorem State.onLoad_unk (bytes : List Byte) (s : State) : (s.onLoad bytes).unk = s.unk := by
  unfold State.onLoad; split <;> rfl
@[simp] theorem State.onLoad_font (bytes : List Byte) (s : State) : (s.onLoad bytes).font = s.font := by
  unfold State.onLoad; split <;> rfl
@[simp] theorem State.onLoad_rnd (bytes : List Byte) (s : State) : (s.onLoad bytes).rnd = s.rnd := by
  unfold State.onLoad; split <;> rfl
@[simp] theorem State.onLoad_draws (bytes : List Byte) (s : State) : (s.onLoad bytes).draws = s.draws := by
  unfold State.onLoad; split <;> rfl
@[simp] theorem State.onLoad_pending (bytes : List Byte) (s : State) : (s.onLoad bytes).pending = s.pending := by
  unfold State.onLoad; split <;> rfl

/-! ### `State.onKey`: the fields it leaves alone -/

@[simp] theorem State.onKey_mem (c : KeyCode) (p : Bool) (s : State) : (s.onKey c p).mem = s.mem := by
  unfold State.onKey; dsimp only; split <;> rfl
@[simp] theorem State.onKey_i (c : KeyCode) (p : Bool) (s : State) : (s.onKey c p).i = s.i := by
  unfold State.onKey; dsimp only; split <;> rfl
@[simp] theorem State.onKey_pc (c : KeyCode) (p : Bool) (s : State) : (s.onKey c p).pc = s.pc := by
  unfold State.onKey; dsimp only; split <;> rfl
@[simp] theorem State.onKey_stack (c : KeyCode) (p : Bool) (s : State) : (s.onKey c p).stack = s.stack := by
  unfold State.onKey; dsimp only; split <;> rfl
@[simp] theorem State.onKey_sp (c : KeyCode) (p : Bool) (s : State) : (s.onKey c p).sp = s.sp := by
  unfold State.onKey; dsimp only; split <;> rfl
@[simp] theorem State.onKey_dt (c : KeyCode) (p : Bool) (s : State) : (s.onKey c p).dt = s.dt := by
  unfold State.onKey; dsimp only; split <;> rfl
@[simp] theorem State.onKey_st (c : KeyCode) (p : Bool) (s : State) : (s.onKey c p).st = s.st := by
  unfold State.onKey; dsimp only; split <;> rfl
@[simp] theorem State.onKey_disp (c : KeyCode) (p : Bool) (s : State) : (s.onKey c p).disp = s.disp := by
  unfold State.onKey; dsimp only; split <;> rfl
@[simp] theorem State.onKey_dirty (c : KeyCode) (p : Bool) (s : State) : (s.onKey c p).dirty = s.dirty := by
  unfold State.onKey; dsimp only; split <;> rfl
@[simp] theorem State.onKey_ktarget (c : KeyCode) (p : Bool) (s : State) : (s.onKey c p).ktarget = s.ktarget := by
  unfold State.onKey; dsimp only; split <;> rfl
@[simp] theorem State.onKey_halted (c : KeyCode) (p : Bool) (s : State) : (s.onKey c p).halted = s.halted := by
  unfold State.onKey; dsimp only; split <;> rfl
@[simp] theorem State.onKey_cause (c : KeyCode) (p : Bool) (s : State) : (s.onKey c p).cause = s.cause := by
  unfold State.onKey; dsimp only; split <;> rfl
@[simp] theorem State.onKey_unk (c : KeyCode) (p : Bool) (s : State) : (s.onKey c p).unk = s.unk := by
  unfold State.onKey; dsimp only; split <;> rfl
@[simp] theorem State.onKey_font (c : KeyCode) (p : Bool) (s : State) : (s.onKey c p).font = s.font := by
  unfold State.onKey; dsimp only; split <;> rfl
@[simp] theorem State.onKey_rnd (c : KeyCode) (p : Bool) (s : State) : (s.onKey c p).rnd = s.rnd := by
  unfold State.onKey; dsimp only; split <;> rfl
@[simp] theorem State.onKey_draws (c : KeyCode) (p : Bool) (s : State) : (s.onKey c p).draws = s.draws := by
  unfold State.onKey; dsimp only; split <;> rfl
@[simp] theorem State.onKey_pending (c : KeyCode) (p : Bool) (s : State) : (s.onKey c p).pending = s.pending := by
  unfold State.onKey; dsimp only; split <;> rfl

/-! ### `State.onTakeDisplay`: the fields it leaves alone -/

@[simp] theorem State.onTakeDisplay_mem (s : State) : s.onTakeDisplay.mem = s.mem := by
  unfold State.onTakeDisplay; split <;> rfl
@[simp] theorem State.onTakeDisplay_v (s : State) : s.onTakeDisplay.v = s.v := by
  unfold State.onTakeDisplay; split <;> rfl
@[simp] theorem State.onTakeDisplay_i (s : State) : s.onTakeDisplay.i = s.i := by
  unfold State.onTakeDisplay; split <;> rfl
@[simp] theorem State.onTakeDisplay_pc (s : State) : s.onTakeDisplay.pc = s.pc := by
  unfold State.onTakeDisplay; split <;> rfl
@[simp] theorem State.onTakeDisplay_stack (s : State) : s.onTakeDisplay.stack = s.stack := by
  unfold State.onTakeDisplay; split <;> rfl
@[simp] theorem State.onTakeDisplay_sp (s : State) : s.onTakeDisplay.sp = s.sp := by
  unfold State.onTakeDisplay; split <;> rfl
@[simp] theorem State.onTakeDisplay_dt (s : State) : s.onTakeDisplay.dt = s.dt := by
  unfold State.onTakeDisplay; split <;> rfl
@[simp] theorem State.onTakeDisplay_st (s : State) : s.onTakeDisplay.st = s.st := by
  unfold State.onTakeDisplay; split <;> rfl
@[simp] theorem State.onTakeDisplay_key (s : State) : s.onTakeDisplay.key = s.key := by
  unfold State.onTakeDisplay; split <;> rfl
@[simp] theorem State.onTakeDisplay_disp (s : State) : s.onTakeDisplay.disp = s.disp := by
  unfold State.onTakeDisplay; split <;> rfl
@[simp] theorem State.onTakeDisplay_blocked (s : State) : s.onTakeDisplay.blocked = s.blocked := by
  unfold State.onTakeDisplay; split <;> rfl
@[simp] theorem State.onTakeDisplay_ktarget (s : State) : s.onTakeDisplay.ktarget = s.ktarget := by
  unfold State.onTakeDisplay; split <;> rfl
@[simp] theorem State.onTakeDisplay_halted (s : State) : s.onTakeDisplay.halted = s.halted := by
  unfold State.onTakeDisplay; split <;> rfl
@[simp] theorem State.onTakeDisplay_cause (s : State) : s.onTakeDisplay.cause = s.cause := by
  unfold State.onTakeDisplay; split <;> rfl
@[simp] theorem State.onTakeDisplay_unk (s : State) : s.onTakeDisplay.unk = s.unk := by
  unfold State.onTakeDisplay; split <;> rfl
@[simp] theorem State.onTakeDisplay_font (s : State) : s.onTakeDisplay.font = s.font := by
  unfold State.onTakeDisplay; split <;> rfl
@[simp] theorem State.onTakeDisplay_rnd (s : State) : s.onTakeDisplay.rnd = s.rnd := by
  unfold State.onTakeDisplay; split <;> rfl
@[simp] theorem State.onTakeDisplay_draws (s : State) : s.onTakeDisplay.draws = s.draws := by
  unfold State.onTakeDisplay; split <;> rfl
@[simp] theorem State.onTakeDisplay_pending (s : State) : s.onTakeDisplay.pending = s.pending := by
  unfold State.onTakeDisplay; split <;> rfl

/-! ### `State.takeEvent`: the fields it leaves alone -/

@[simp] theorem State.takeEvent_mem (s : State) : s.takeEvent.mem = s.mem := by
  unfold State.takeEvent; split <;> rfl
@[simp] theorem State.takeEvent_v (s : State) : s.takeEvent.v = s.v := by
  unfold State.takeEvent; split <;> rfl
@[simp] theorem State.takeEvent_i (s : State) : s.takeEvent.i = s.i := by
  unfold State.takeEvent; split <;> rfl
@[simp] theorem State.takeEvent_pc (s : State) : s.takeEvent.pc = s.pc := by
  unfold State.takeEvent; split <;> rfl
@[simp] theorem State.takeEvent_stack (s : State) : s.takeEvent.stack = s.stack := by
  unfold State.takeEvent; split <;> rfl
@[simp] theorem State.takeEvent_sp (s : State) : s.takeEvent.sp = s.sp := by
  unfold State.takeEvent; split <;> rfl
@[simp] theorem State.takeEvent_dt (s : State) : s.takeEvent.dt = s.dt := by
  unfold State.takeEvent; split <;> rfl
@[simp] theorem State.takeEvent_st (s : State) : s.takeEvent.st = s.st := by
  unfold State.takeEvent; split <;> rfl
@[simp] theorem State.takeEvent_key (s : State) : s.takeEvent.key = s.key := by
  unfold State.takeEvent; split <;> rfl
@[simp] theorem State.takeEvent_disp (s : State) : s.takeEvent.disp = s.disp := by
  unfold State.takeEvent; split <;> rfl
@[simp] theorem State.takeEvent_dirty (s : State) : s.takeEvent.dirty = s.dirty := by
  unfold State.takeEvent; split <;> rfl
@[simp] theorem State.takeEvent_blocked (s : State) : s.takeEvent.blocked = s.blocked := by
  unfold State.takeEvent; split <;> rfl
@[simp] theorem State.takeEvent_ktarget (s : State) : s.takeEvent.ktarget = s.ktarget := by
  unfold State.takeEvent; split <;> rfl
@[simp] theorem State.takeEvent_halted (s : State) : s.takeEvent.halted = s.halted := by
  unfold State.takeEvent; split <;> rfl
@[simp] theorem State.takeEvent_cause (s : State) : s.takeEvent.cause = s.cause := by
  unfold State.takeEvent; split <;> rfl
@[simp] theorem State.takeEvent_unk (s : State) : s.takeEvent.unk = s.unk := by
  unfold State.takeEvent; split <;> rfl
@[simp] theorem State.takeEvent_font (s : State) : s.takeEvent.font = s.font := by
  unfold State.takeEvent; split <;> rfl
@[simp] theorem State.takeEvent_rnd (s : State) : s.takeEvent.rnd = s.rnd := by
  unfold State.takeEvent; split <;> rfl
@[simp] theorem State.takeEvent_output (s : State) : s.takeEvent.output = s.output := by
  unfold State.takeEvent; split <;> rfl

/-! ### `State.placeWord`: the fields it leaves alone -/

@[simp] theorem State.placeWord_v (w : Word) (s : State) : (s.placeWord w).v = s.v := by
  unfold State.placeWord; split <;> rfl
@[simp] theorem State.placeWord_i (w : Word) (s : State) : (s.placeWord w).i = s.i := by
  unfold State.placeWord; split <;> rfl
@[simp] theorem State.placeWord_pc (w : Word) (s : State) : (s.placeWord w).pc = s.pc := by
  unfold State.placeWord; split <;> rfl
@[simp] theorem State.placeWord_stack (w : Word) (s : State) : (s.placeWord w).stack = s.stack := by
  unfold State.placeWord; split <;> rfl
@[simp] theorem State.placeWord_sp (w : Word) (s : State) : (s.placeWord w).sp = s.sp := by
  unfold State.placeWord; split <;> rfl
@[simp] theorem State.placeWord_dt (w : Word) (s : State) : (s.placeWord w).dt = s.dt := by
  unfold State.placeWord; split <;> rfl
@[simp] theorem State.placeWord_st (w : Word) (s : State) : (s.placeWord w).st = s.st := by
  unfold State.placeWord; split <;> rfl
@[simp] theorem State.placeWord_key (w : Word) (s : State) : (s.placeWord w).key = s.key := by
  unfold State.placeWord; split <;> rfl
@[simp] theorem State.placeWord_disp (w : Word) (s : State) : (s.placeWord w).disp = s.disp := by
  unfold State.placeWord; split <;> rfl
@[simp] theorem State.placeWord_dirty (w : Word) (s : State) : (s.placeWord w).dirty = s.dirty := by
  unfold State.placeWord; split <;> rfl
@[simp] theorem State.placeWord_blocked (w : Word) (s : State) : (s.placeWord w).blocked = s.blocked := by
  unfold State.placeWord; split <;> rfl
@[simp] theorem State.placeWord_ktarget (w : Word) (s : State) : (s.placeWord w).ktarget = s.ktarget := by
  unfold State.placeWord; split <;> rfl
@[simp] theorem State.placeWord_halted (w : Word) (s : State) : (s.placeWord w).halted = s.halted := by
  unfold State.placeWord; split <;> rfl
@[simp] theorem State.placeWord_cause (w : Word) (s : State) : (s.placeWord w).cause = s.cause := by
  unfold State.placeWord; split <;> rfl
@[simp] theorem State.placeWord_unk (w : Word) (s : State) : (s.placeWord w).unk = s.unk := by
  unfold State.placeWord; split <;> rfl
@[simp] theorem State.placeWord_font (w : Word) (s : State) : (s.placeWord w).font = s.font := by
  unfold State.placeWord; split <;> rfl
@[simp] theorem State.placeWord_rnd (w : Word) (s : State) : (s.placeWord w).rnd = s.rnd := by
  unfold State.placeWord; split <;> rfl
@[simp] theorem State.placeWord_draws (w : Word) (s : State) : (s.placeWord w).draws = s.draws := by
  unfold State.placeWord; split <;> rfl
@[simp] theorem State.placeWord_pending (w : Word) (s : State) : (s.placeWord w).pending = s.pending := by
  unfold State.placeWord; split <;> rfl
@[simp] theorem State.placeWord_output (w : Word) (s : State) : (s.placeWord w).output = s.output := by
  unfold State.placeWord; split <;> rfl

/-! ### The writes of the conditional updates -/

/-- KEY always leaves the flag as the event says (40_host_operations.md R94). -/
@[simp] theorem State.onKey_key (c : KeyCode) (p : Bool) (s : State) : (s.onKey c p).key = s.key.set c p := by
  unfold State.onKey; dsimp only; split <;> rfl

@[simp] theorem State.onKey_output (c : KeyCode) (p : Bool) (s : State) : (s.onKey c p).output = .none := by
  unfold State.onKey; dsimp only; split <;> rfl

/-- A key-up, or a key event while not blocked, writes no register. -/
theorem State.onKey_of_not_waiting {c : KeyCode} {p : Bool} {s : State} (h : (p && s.blocked) = false) :
    s.onKey c p = { s with key := s.key.set c p, output := .none } := by
  simp [State.onKey, h]

/-- A key-down while blocked ends the wait. -/
theorem State.onKey_of_waiting {c : KeyCode} {s : State} (h : s.blocked = true) :
    s.onKey c true =
      { s with key := s.key.set c true, v := s.v.set s.ktarget (BitVec.ofNat 8 c.val), blocked := false,
               output := .none } := by
  simp [State.onKey, h, State.setV]

/-- TAKE_DISPLAY always leaves `DIRTY` clear (R95). -/
@[simp] theorem State.onTakeDisplay_dirty (s : State) : s.onTakeDisplay.dirty = false := by
  unfold State.onTakeDisplay; split <;> simp_all

/-- The next event of a state with pending events. -/
theorem State.nextEvent_cons {s : State} {e : Event} {es : List Event} (h : s.pending = e :: es) :
    s.nextEvent = e ∧ s.takeEvent = { s with pending := es } := by
  simp [State.nextEvent, State.takeEvent, h]

/-- With nothing pending the next event is a STEP with a free random byte. -/
theorem State.nextEvent_nil {s : State} (h : s.pending = []) :
    s.nextEvent = .step (Config.freeRnd s.draws) ∧ s.takeEvent = { s with draws := s.draws + 1 } := by
  simp [State.nextEvent, State.takeEvent, h]

end Sys2Proof.Machine
end

