-- ==== Sys2Proof/Laws/Ops.lean ====
section
/-! SUPPORT. One lemma per shared operation that says everything it can do; later proofs cite it and never unfold the
operation. -/

namespace Sys2Proof.Machine

/-! ### Registers -/

theorem State.setV_get (x r : RegIdx) (b : Byte) (s : State) :
    (s.setV x b).v[r] = if r = x then b else s.v[r] := by
  by_cases h : r = x
  · subst h; simp
  · have : ¬ x.val = r.val := fun e => h (Fin.ext e.symm)
    simp [this, h]

/-- What `setRegsFrom` leaves in every register. -/
theorem setRegsFrom_get (bytes : List Byte) : ∀ (k : Nat) (v : Vector Byte 16) (r : Nat) (hr : r < 16),
    (setRegsFrom k bytes v)[r] = if k ≤ r then bytes.getD (r - k) v[r] else v[r] := by
  induction bytes with
  | nil => intro k v r hr; simp [setRegsFrom]
  | cons b bs ih =>
    intro k v r hr
    simp only [setRegsFrom, ih, Vector.getElem_setIfInBounds]
    by_cases h1 : k = r
    · subst h1; simp
    · by_cases h2 : k + 1 ≤ r
      · have h3 : k ≤ r := by omega
        have h4 : r - k = (r - (k + 1)) + 1 := by omega
        simp [h1, h2, h3, h4]
      · have h3 : ¬ k ≤ r := by omega
        simp [h1, h2, h3]

theorem State.regsThrough_length (x : RegIdx) (s : State) : (s.regsThrough x).length = x.val + 1 := by
  have := x.isLt
  simp [State.regsThrough]

theorem State.regsThrough_getElem (x : RegIdx) (s : State) (k : Nat) (hk : k < (s.regsThrough x).length) :
    (s.regsThrough x)[k] = s.v[k]'(by rw [State.regsThrough_length] at hk; omega) := by
  simp [State.regsThrough]

/-! ### The call stack -/

/-- A push below 16 entries. -/
theorem State.push_of_lt (a : Word) (s : State) (h : s.sp.val < 16) :
    s.push a = some { s with stack := s.stack.set s.sp.val a, sp := ⟨s.sp.val + 1, by omega⟩ } := by
  simp [State.push, h]

/-- A push on a full stack. -/
theorem State.push_of_full (a : Word) (s : State) (h : s.sp.val = 16) : s.push a = none := by
  simp [State.push, h]

/-- A pop of a stack with entries. -/
theorem State.pop_of_pos (s : State) (h : 0 < s.sp.val) :
    s.pop = some (s.stack[s.sp.val - 1]'(by omega), { s with sp := ⟨s.sp.val - 1, by omega⟩ }) := by
  simp [State.pop, h]

/-- A pop of an empty stack. -/
theorem State.pop_of_empty (s : State) (h : s.sp.val = 0) : s.pop = none := by
  simp [State.pop, h]

/-! ### The memory instructions' shapes -/

/-- `storing` either copies every byte, all addresses being in range, or raises `MemFault` with nothing written. -/
theorem State.storing_eq (a : Nat) (bytes : List Byte) (k : State → State) (s : State) :
    s.storing a bytes k =
      if bytes.length = 0 ∨ a + bytes.length ≤ 4096 then k { s with mem := Memory.copyIn s.font s.mem a bytes }
      else s.raise .memFault := by
  unfold State.storing
  rw [Memory.writeBytes_eq]
  split <;> simp_all

/-- `loading` either reads every byte, all addresses being in range, or raises `MemFault`. -/
theorem State.loading_eq (a n : Nat) (k : List Byte → State → State) (s : State) :
    s.loading a n k =
      if n = 0 ∨ a + n ≤ 4096 then k ((List.range n).map fun j => Memory.read s.font s.mem (a + j)) s
      else s.raise .memFault := by
  unfold State.loading
  rw [Memory.readBytes_eq]
  split <;> simp_all

/-- A checked byte read inside the address space. -/
theorem State.memRead_of_le (s : State) {a : Nat} (h : a ≤ 0xFFF) :
    s.memRead a = some (Memory.read s.font s.mem a) := by
  simp [State.memRead, Memory.readByte, h]

/-- Fetch answers a word exactly when both its bytes are in range. -/
theorem State.fetch_eq (s : State) :
    s.fetch =
      if s.pc.toNat + 1 ≤ 0xFFF then
        some (wordOfBytes (Memory.read s.font s.mem s.pc.toNat) (Memory.read s.font s.mem (s.pc.toNat + 1)))
      else none := by
  unfold State.fetch State.memRead Memory.readByte
  by_cases h : s.pc.toNat + 1 ≤ 0xFFF
  · have h' : s.pc.toNat ≤ 0xFFF := by omega
    simp [h, h']
  · simp only [h, if_false]
    split <;> simp_all

end Sys2Proof.Machine
end

