-- ==== Sys2Proof/Laws/PerInstr.lean ====
section
/-! SUPPORT. Statements made per instruction (LAWS.json). TableRow: the encoder's word of a well-formed instruction
lies in its row of the opcode map (30_encoding.md R75): under the row's mask it is the row's match. -/

namespace Sys2Proof

/-- The "mask" and "match" columns of an instruction's row of the opcode map (R75). -/
def Instr.row : Instr → Word × Word
  | .clearScreen => (0xFFFF, 0x00E0)
  | .ret => (0xFFFF, 0x00EE)
  | .jump _ => (0xF000, 0x1000)
  | .call _ => (0xF000, 0x2000)
  | .skipIfEqualImmediate _ _ => (0xF000, 0x3000)
  | .skipIfNotEqualImmediate _ _ => (0xF000, 0x4000)
  | .skipIfRegistersEqual _ _ => (0xF00F, 0x5000)
  | .setImmediate _ _ => (0xF000, 0x6000)
  | .addImmediate _ _ => (0xF000, 0x7000)
  | .move _ _ => (0xF00F, 0x8000)
  | .bitOr _ _ => (0xF00F, 0x8001)
  | .bitAnd _ _ => (0xF00F, 0x8002)
  | .bitXor _ _ => (0xF00F, 0x8003)
  | .add _ _ => (0xF00F, 0x8004)
  | .sub _ _ => (0xF00F, 0x8005)
  | .shiftRight _ => (0xF00F, 0x8006)
  | .subReverse _ _ => (0xF00F, 0x8007)
  | .shiftLeft _ => (0xF00F, 0x800E)
  | .skipIfRegistersNotEqual _ _ => (0xF00F, 0x9000)
  | .setIndex _ => (0xF000, 0xA000)
  | .jumpWithOffset _ => (0xF000, 0xB000)
  | .randomAnd _ _ => (0xF000, 0xC000)
  | .drawSprite _ _ _ => (0xF000, 0xD000)
  | .skipIfKeyPressed _ => (0xF0FF, 0xE09E)
  | .skipIfKeyNotPressed _ => (0xF0FF, 0xE0A1)
  | .getDelay _ => (0xF0FF, 0xF007)
  | .waitKey _ => (0xF0FF, 0xF00A)
  | .setDelay _ => (0xF0FF, 0xF015)
  | .setSound _ => (0xF0FF, 0xF018)
  | .addToIndex _ => (0xF0FF, 0xF01E)
  | .fontCharAddress _ => (0xF0FF, 0xF029)
  | .storeBcd _ => (0xF0FF, 0xF033)
  | .dumpRegisters _ => (0xF0FF, 0xF055)
  | .loadRegisters _ => (0xF0FF, 0xF065)

/-! ### The masks, layout by layout -/

theorem wordA_mask (op : BitVec 4) (nnn : Addr) : wordA op nnn &&& 0xF000#16 = wordA op 0 := by
  apply BitVec.eq_of_getLsbD_eq
  intro k hk
  rw [BitVec.getLsbD_and, wordA_bit, wordA_bit]
  interval_cases k <;> simp

theorem wordXI_mask (op : BitVec 4) (x : RegIdx) (nn : Byte) : wordXI op x nn &&& 0xF000#16 = wordXI op 0 0 := by
  apply BitVec.eq_of_getLsbD_eq
  intro k hk
  rw [BitVec.getLsbD_and, wordXI_bit, wordXI_bit]
  interval_cases k <;> simp [regBits]

theorem wordX_mask (op : BitVec 4) (x : RegIdx) (nn : Byte) : wordXI op x nn &&& 0xF0FF#16 = wordXI op 0 nn := by
  apply BitVec.eq_of_getLsbD_eq
  intro k hk
  rw [BitVec.getLsbD_and, wordXI_bit, wordXI_bit]
  interval_cases k <;> simp [regBits]

theorem wordXY_mask (op : BitVec 4) (x y : RegIdx) (n : BitVec 4) :
    wordXY op x y n &&& 0xF00F#16 = wordXY op 0 0 n := by
  apply BitVec.eq_of_getLsbD_eq
  intro k hk
  rw [BitVec.getLsbD_and, wordXY_bit, wordXY_bit]
  interval_cases k <;> simp [regBits]

theorem wordXYN_mask (op : BitVec 4) (x y : RegIdx) (n : BitVec 4) :
    wordXY op x y n &&& 0xF000#16 = wordXY op 0 0 0 := by
  apply BitVec.eq_of_getLsbD_eq
  intro k hk
  rw [BitVec.getLsbD_and, wordXY_bit, wordXY_bit]
  interval_cases k <;> simp [regBits]

end Sys2Proof

namespace Sys2Proof.Laws.TableRow

/-- The word of a well-formed instruction lies in its row of the opcode map. -/
def Statement (i : Instr) : Prop := i.wellFormed = true → encode i &&& i.row.1 = i.row.2

theorem clearScreen : Statement .clearScreen := fun _ => rfl
theorem ret : Statement .ret := fun _ => rfl
theorem jump (nnn : Addr) : Statement (.jump nnn) := fun _ => (wordA_mask ..).trans rfl
theorem call (nnn : Addr) : Statement (.call nnn) := fun _ => (wordA_mask ..).trans rfl
theorem skipIfEqualImmediate (x : RegIdx) (nn : Byte) : Statement (.skipIfEqualImmediate x nn) := fun _ => (wordXI_mask ..).trans rfl
theorem skipIfNotEqualImmediate (x : RegIdx) (nn : Byte) : Statement (.skipIfNotEqualImmediate x nn) := fun _ => (wordXI_mask ..).trans rfl
theorem skipIfRegistersEqual (x : RegIdx) (y : RegIdx) : Statement (.skipIfRegistersEqual x y) := fun _ => (wordXY_mask ..).trans rfl
theorem setImmediate (x : RegIdx) (nn : Byte) : Statement (.setImmediate x nn) := fun _ => (wordXI_mask ..).trans rfl
theorem addImmediate (x : RegIdx) (nn : Byte) : Statement (.addImmediate x nn) := fun _ => (wordXI_mask ..).trans rfl
theorem move (x : RegIdx) (y : RegIdx) : Statement (.move x y) := fun _ => (wordXY_mask ..).trans rfl
theorem bitOr (x : RegIdx) (y : RegIdx) : Statement (.bitOr x y) := fun _ => (wordXY_mask ..).trans rfl
theorem bitAnd (x : RegIdx) (y : RegIdx) : Statement (.bitAnd x y) := fun _ => (wordXY_mask ..).trans rfl
theorem bitXor (x : RegIdx) (y : RegIdx) : Statement (.bitXor x y) := fun _ => (wordXY_mask ..).trans rfl
theorem add (x : RegIdx) (y : RegIdx) : Statement (.add x y) := fun _ => (wordXY_mask ..).trans rfl
theorem sub (x : RegIdx) (y : RegIdx) : Statement (.sub x y) := fun _ => (wordXY_mask ..).trans rfl
theorem shiftRight (x : RegIdx) : Statement (.shiftRight x) := fun _ => (wordXY_mask ..).trans rfl
theorem subReverse (x : RegIdx) (y : RegIdx) : Statement (.subReverse x y) := fun _ => (wordXY_mask ..).trans rfl
theorem shiftLeft (x : RegIdx) : Statement (.shiftLeft x) := fun _ => (wordXY_mask ..).trans rfl
theorem skipIfRegistersNotEqual (x : RegIdx) (y : RegIdx) : Statement (.skipIfRegistersNotEqual x y) := fun _ => (wordXY_mask ..).trans rfl
theorem setIndex (nnn : Addr) : Statement (.setIndex nnn) := fun _ => (wordA_mask ..).trans rfl
theorem jumpWithOffset (nnn : Addr) : Statement (.jumpWithOffset nnn) := fun _ => (wordA_mask ..).trans rfl
theorem randomAnd (x : RegIdx) (nn : Byte) : Statement (.randomAnd x nn) := fun _ => (wordXI_mask ..).trans rfl
theorem drawSprite (x : RegIdx) (y : RegIdx) (n : Nat) : Statement (.drawSprite x y n) := fun _ => (wordXYN_mask ..).trans rfl
theorem skipIfKeyPressed (x : RegIdx) : Statement (.skipIfKeyPressed x) := fun _ => (wordX_mask ..).trans rfl
theorem skipIfKeyNotPressed (x : RegIdx) : Statement (.skipIfKeyNotPressed x) := fun _ => (wordX_mask ..).trans rfl
theorem getDelay (x : RegIdx) : Statement (.getDelay x) := fun _ => (wordX_mask ..).trans rfl
theorem waitKey (x : RegIdx) : Statement (.waitKey x) := fun _ => (wordX_mask ..).trans rfl
theorem setDelay (x : RegIdx) : Statement (.setDelay x) := fun _ => (wordX_mask ..).trans rfl
theorem setSound (x : RegIdx) : Statement (.setSound x) := fun _ => (wordX_mask ..).trans rfl
theorem addToIndex (x : RegIdx) : Statement (.addToIndex x) := fun _ => (wordX_mask ..).trans rfl
theorem fontCharAddress (x : RegIdx) : Statement (.fontCharAddress x) := fun _ => (wordX_mask ..).trans rfl
theorem storeBcd (x : RegIdx) : Statement (.storeBcd x) := fun _ => (wordX_mask ..).trans rfl
theorem dumpRegisters (x : RegIdx) : Statement (.dumpRegisters x) := fun _ => (wordX_mask ..).trans rfl
theorem loadRegisters (x : RegIdx) : Statement (.loadRegisters x) := fun _ => (wordX_mask ..).trans rfl

end Sys2Proof.Laws.TableRow
end

