-- ==== Sys2Proof/Laws/Signals.lean ====
section
/-! SUPPORT. What one clock cycle can do, said once (40_host_operations.md R96, R97). -/

namespace Sys2Proof.Machine

/-- With `rst` high a cycle is a RESET and nothing else. -/
theorem cycle_of_rst {σ : Strobes} (s : State) (h : σ.rst = true) :
    cycle σ s = .next (s.onReset, s.onReset.pins 0) := by
  simp [cycle, h]

/-- A cycle without a STEP: the strobes before it, then the read-out; `report` is 0. -/
theorem cycle_of_no_step {σ : Strobes} (s : State) (h : σ.rst = false) (hs : σ.step = none) :
    cycle σ s = .next ((s.strobeInputs σ).strobeTake σ.take, (s.strobeInputs σ).pins 0) := by
  simp [cycle, h, hs]

/-- A cycle with a STEP that answers a next state: that state is what the pins show and what the read-out acts on. -/
theorem cycle_of_step {σ : Strobes} {s t : State} {rnd : Byte} (h : σ.rst = false) (hs : σ.step = some rnd)
    (ht : stepEvent rnd (s.strobeInputs σ) = .next t) :
    cycle σ s = .next (t.strobeTake σ.take, t.pins t.output.reportCode) := by
  simp [cycle, h, hs, ht]

end Sys2Proof.Machine
end

