-- ==== Sys2Proof/Laws/Step.lean ====
section
/-! SUPPORT. What a STEP and a step can do, said once; later proofs cite these and never unfold `step`. -/

namespace Sys2Proof.Machine

/-- A STEP of a halted or blocked core (41_step_cycle.md R101). -/
theorem stepEvent_of_gate {s : State} (rnd : Byte) (h : (s.halted || s.blocked) = true) :
    stepEvent rnd s = .next s.idle := by
  simp [stepEvent, h]

/-- A STEP whose fetch is out of range (R102). -/
theorem stepEvent_of_fetch_none {s : State} (rnd : Byte) (h : (s.halted || s.blocked) = false)
    (hf : s.fetch = none) : stepEvent rnd s = .next (s.raise .memFault) := by
  simp [stepEvent, h, hf]

/-- A STEP that fetches an unknown opcode (R104). -/
theorem stepEvent_of_unknown {s : State} {w : Word} (rnd : Byte) (h : (s.halted || s.blocked) = false)
    (hf : s.fetch = some w) (hd : decodeWord w = none) : stepEvent rnd s = .next s.unknownOpcode := by
  simp [stepEvent, h, hf, hd]

/-- A STEP that executes (R105). -/
theorem stepEvent_of_instr {s : State} {w : Word} {i : Instr} (rnd : Byte) (h : (s.halted || s.blocked) = false)
    (hf : s.fetch = some w) (hd : decodeWord w = some i) : stepEvent rnd s = exec i (s.beginStep rnd) := by
  simp [stepEvent, h, hf, hd]

/-- Everything a STEP can do: be idle, fault at fetch, report an unknown opcode, or execute one instruction. -/
theorem stepEvent_cases {s t : State} {rnd : Byte} (h : stepEvent rnd s = .next t) :
    ((s.halted || s.blocked) = true ∧ t = s.idle) ∨
    ((s.halted || s.blocked) = false ∧ s.fetch = none ∧ t = s.raise .memFault) ∨
    ((s.halted || s.blocked) = false ∧ ∃ w, s.fetch = some w ∧ decodeWord w = none ∧ t = s.unknownOpcode) ∨
    ((s.halted || s.blocked) = false ∧ ∃ w i, s.fetch = some w ∧ decodeWord w = some i ∧
      exec i (s.beginStep rnd) = .next t) := by
  cases hg : (s.halted || s.blocked) with
  | true =>
    rw [stepEvent_of_gate rnd hg] at h
    exact .inl ⟨rfl, (Host.Outcome.next.inj h).symm⟩
  | false =>
    cases hf : s.fetch with
    | none =>
      rw [stepEvent_of_fetch_none rnd hg hf] at h
      exact .inr (.inl ⟨rfl, rfl, (Host.Outcome.next.inj h).symm⟩)
    | some w =>
      cases hd : decodeWord w with
      | none =>
        rw [stepEvent_of_unknown rnd hg hf hd] at h
        exact .inr (.inr (.inl ⟨rfl, w, rfl, hd, (Host.Outcome.next.inj h).symm⟩))
      | some i =>
        rw [stepEvent_of_instr rnd hg hf hd] at h
        exact .inr (.inr (.inr ⟨rfl, w, i, rfl, hd, h⟩))

/-- Everything a step can do, event by event. -/
theorem step_cases {s t : State} (h : step s = .next t) :
    (s.nextEvent = .reset ∧ t = s.takeEvent.onReset) ∨
    (∃ bytes, s.nextEvent = .load bytes ∧ t = s.takeEvent.onLoad bytes) ∨
    (∃ c p, s.nextEvent = .key c p ∧ t = s.takeEvent.onKey c p) ∨
    (s.nextEvent = .takeDisplay ∧ t = s.takeEvent.onTakeDisplay) ∨
    (s.nextEvent = .tick ∧ t = s.takeEvent.onTick) ∨
    (∃ rnd, s.nextEvent = .step rnd ∧ stepEvent rnd s.takeEvent = .next t) := by
  unfold step at h
  cases he : s.nextEvent with
  | reset => rw [he] at h; exact .inl ⟨rfl, (Host.Outcome.next.inj h).symm⟩
  | load bytes => rw [he] at h; exact .inr (.inl ⟨bytes, rfl, (Host.Outcome.next.inj h).symm⟩)
  | key c p => rw [he] at h; exact .inr (.inr (.inl ⟨c, p, rfl, (Host.Outcome.next.inj h).symm⟩))
  | takeDisplay => rw [he] at h; exact .inr (.inr (.inr (.inl ⟨rfl, (Host.Outcome.next.inj h).symm⟩)))
  | tick => rw [he] at h; exact .inr (.inr (.inr (.inr (.inl ⟨rfl, (Host.Outcome.next.inj h).symm⟩))))
  | step rnd => rw [he] at h; exact .inr (.inr (.inr (.inr (.inr ⟨rnd, rfl, h⟩))))

end Sys2Proof.Machine
end

