-- ==== Sys2Proof/Tests/Slice0.lean ====
section
/-! SUPPORT. Tests of the model and witnesses of its statements. Expected results are hand-copied from the spec: the
words from 30_encoding.md R75, the effects from 95_test_vectors.md (the vector's name stands at each test). -/

namespace Sys2Proof.Tests

open Sys2Proof Sys2Proof.Machine

/-! ### Syntax and decoding -/

/-- The one check of well-formedness: a height of 16 does not fit the 4-bit field. -/
theorem test_wellFormed_refuses_height_16 :
    (Instr.drawSprite 0 0 16).wellFormed = false ∧ (Instr.drawSprite 0 0 15).wellFormed = true := by decide

/-- Formats Z and A. -/
theorem test_decode_Z_A :
    decodeWord 0b0000000011100000 = some .clearScreen ∧ decodeWord 0b0000000011101110 = some .ret ∧
    decodeWord 0b0001101010111100 = some (.jump 0xABC) ∧ decodeWord 0b0010111111111111 = some (.call 0xFFF) ∧
    decodeWord 0b1010001011110000 = some (.setIndex 0x2F0) ∧
    decodeWord 0b1011111111111111 = some (.jumpWithOffset 0xFFF) := by decide

/-- Format XI. -/
theorem test_decode_XI :
    decodeWord 0b0011101001111111 = some (.skipIfEqualImmediate 10 0x7F) ∧
    decodeWord 0b0100001100101010 = some (.skipIfNotEqualImmediate 3 0x2A) ∧
    decodeWord 0b0110101000000101 = some (.setImmediate 10 0x05) ∧
    decodeWord 0b0111000111111111 = some (.addImmediate 1 0xFF) ∧
    decodeWord 0b1100001100001111 = some (.randomAnd 3 0x0F) := by decide

/-- Formats XY and XYN. -/
theorem test_decode_XY :
    decodeWord 0b0101000100100000 = some (.skipIfRegistersEqual 1 2) ∧
    decodeWord 0b1000000100100000 = some (.move 1 2) ∧ decodeWord 0b1000000100100001 = some (.bitOr 1 2) ∧
    decodeWord 0b1000000100100010 = some (.bitAnd 1 2) ∧ decodeWord 0b1000000100100011 = some (.bitXor 1 2) ∧
    decodeWord 0b1000000100100100 = some (.add 1 2) ∧ decodeWord 0b1000000100100101 = some (.sub 1 2) ∧
    decodeWord 0b1000101010110110 = some (.shiftRight 10) ∧
    decodeWord 0b1000000100100111 = some (.subReverse 1 2) ∧
    decodeWord 0b1000000100101110 = some (.shiftLeft 1) ∧
    decodeWord 0b1001000100100000 = some (.skipIfRegistersNotEqual 1 2) ∧
    decodeWord 0b1101000100101111 = some (.drawSprite 1 2 15) := by decide

/-- Format X. -/
theorem test_decode_X :
    decodeWord 0b1110000110011110 = some (.skipIfKeyPressed 1) ∧
    decodeWord 0b1110000110100001 = some (.skipIfKeyNotPressed 1) ∧
    decodeWord 0b1111000100000111 = some (.getDelay 1) ∧ decodeWord 0b1111000100001010 = some (.waitKey 1) ∧
    decodeWord 0b1111000100010101 = some (.setDelay 1) ∧ decodeWord 0b1111000100011000 = some (.setSound 1) ∧
    decodeWord 0b1111000100011110 = some (.addToIndex 1) ∧
    decodeWord 0b1111000100101001 = some (.fontCharAddress 1) ∧
    decodeWord 0b1111000100110011 = some (.storeBcd 1) ∧
    decodeWord 0b1111000101010101 = some (.dumpRegisters 1) ∧
    decodeWord 0b1111000101100101 = some (.loadRegisters 1) := by decide

/-- The Unknown words of 95_test_vectors.md 2.1. -/
theorem test_decode_unknown :
    ([0x0000, 0x00E1, 0x00FE, 0x0123, 0x0FFF, 0x5121, 0x512F, 0x8128, 0x8129, 0x812A, 0x812B, 0x812C, 0x812D,
      0x812F, 0x9121, 0xE19F, 0xE100, 0xE1FF, 0xF100, 0xF175, 0xF185, 0xF1FF, 0xFFFF] : List Word).all
      (fun w => decodeWord w == none) = true := by decide +kernel

/-- Bytes: the first is the high one, and fewer than two are no word (R55, R70). -/
theorem test_decode_bytes :
    decodeBytes [0x81, 0x24, 0x99] = .instr (.add 1 2) [0x99] ∧
    decodeBytes [0xFF, 0xFF] = .unknownOpcode 0xFFFF [] ∧ decodeBytes [0x81] = .truncated ∧
    decodeTableWord 16 0x8124 = some (.add 1 2) ∧ encodeBytes (.call 0xFFF) = [0x2F, 0xFF] := by decide

/-! ### A small state and one STEP on it -/

/-- Registers that hold the listed values and 0 elsewhere. -/
def regs (l : List (RegIdx × Byte)) : Vector Byte 16 := l.foldl (fun v c => v.set c.1 c.2) (Vector.replicate 16 0)

/-- Memory that reads the listed values and the reset contents elsewhere. -/
def mem (l : List Host.Cell) : Memory := l.foldl (fun m c => Memory.write Config.defaultFont m c.1 c.2) []

/-- The reset state with `V`, `I` and memory as listed. -/
def small (l : List (RegIdx × Byte)) (i : Word := 0) (m : List Host.Cell := []) : State :=
  { State.reset with v := regs l, i := i, mem := mem m }

/-- The state an outcome goes on with. -/
def nextOf (s : State) : Host.Outcome State Fault Refusal → State
  | .next t => t
  | .fault _ | .refused _ => s

/-- One `STEP(rnd)` with the word at `PC`. -/
def after (w : Word) (s : State) (rnd : Byte := 0) : State :=
  nextOf s (applyEvent (.step rnd) (s.placeWord w))

/-- One event. -/
def event (e : Event) (s : State) : State := nextOf s (applyEvent e s)

/-! ### STEP and control transfer -/

/-- C1, C2. -/
theorem test_step_idle :
    after 0x6A05 { State.reset with blocked := true } =
      { (State.reset.placeWord 0x6A05) with blocked := true, output := .report .idle } ∧
    (after 0x6A05 { State.reset with halted := true, cause := 2 }).v[10] = 0 := by decide

/-- C3. -/
theorem test_step_unknown_opcode :
    after 0x0000 State.reset =
      { State.reset with pc := 0x202, unk := true, output := .report .unknownOpcode } := by decide

/-- C5, C9: the STEP after the jump faults at 0xFFF and at 0x10FE. -/
theorem test_step_fetch_fault :
    event (.step 0) (after 0x1FFF State.reset) =
      { after 0x1FFF State.reset with halted := true, cause := 4, output := .report (.raised .memFault) } ∧
    (after 0xBFFF (small [(0, 0xFF)])).pc = 0x10FE := by decide

/-- C7: an odd `PC` is fetched from as it stands. -/
theorem test_step_odd_pc :
    (event (.step 0) (after 0x1203 (small [] 0 [(0x204, 0xE0)]))).pc = 0x205 := by decide

/-- C25: the skipped word is not decoded. -/
theorem test_skip_does_not_decode :
    (after 0x3000 (small [] 0 [(0x202, 0xFF), (0x203, 0xFF)])).pc = 0x204 := by decide

/-- C4, P1. -/
theorem test_jump : (after 0x1200 State.reset).pc = 0x200 ∧ (after 0x1ABC State.reset).pc = 0xABC := by decide

/-- C8. -/
theorem test_jumpWithOffset : (after 0xB300 (small [(0, 0x04), (3, 0x50)])).pc = 0x304 := by decide

/-- C10, C11. -/
theorem test_call :
    (after 0x2300 State.reset).stack[0] = 0x0202 ∧ (after 0x2300 State.reset).sp = 1 ∧
    (after 0x2300 State.reset).pc = 0x300 ∧
    (after 0x2300 { State.reset with sp := 15 }).stack[15] = 0x0202 ∧
    (after 0x2300 { State.reset with sp := 15 }).sp = 16 := by decide

/-- C12. -/
theorem test_call_overflow :
    after 0x2300 { State.reset with sp := 16 } =
      { (State.reset.placeWord 0x2300) with sp := 16, halted := true, cause := 1,
                                            output := .report (.raised .stackOverflow) } := by decide

/-- C13. -/
theorem test_return :
    (after 0x00EE { State.reset with sp := 1, stack := State.reset.stack.set 0 0x0ABC }).pc = 0xABC ∧
    (after 0x00EE { State.reset with sp := 1, stack := State.reset.stack.set 0 0x0ABC }).sp = 0 := by decide

/-- C14. -/
theorem test_return_underflow :
    after 0x00EE State.reset =
      { (State.reset.placeWord 0x00EE) with halted := true, cause := 2,
                                            output := .report (.raised .stackUnderflow) } := by decide

/-- C15, C16. -/
theorem test_skipIfEqualImmediate :
    (after 0x332A (small [(3, 0x2A)])).pc = 0x204 ∧ (after 0x332B (small [(3, 0x2A)])).pc = 0x202 := by decide

/-- C17, C18. -/
theorem test_skipIfNotEqualImmediate :
    (after 0x432A (small [(3, 0x2A)])).pc = 0x202 ∧ (after 0x4300 (small [(3, 0x2A)])).pc = 0x204 := by decide

/-- C19 to C21. -/
theorem test_skipIfRegistersEqual :
    (after 0x5120 (small [(1, 7), (2, 7)])).pc = 0x204 ∧ (after 0x5120 (small [(1, 7), (2, 8)])).pc = 0x202 ∧
    (after 0x5110 (small [(1, 9)])).pc = 0x204 := by decide

/-- C22 to C24. -/
theorem test_skipIfRegistersNotEqual :
    (after 0x9120 (small [(1, 7), (2, 8)])).pc = 0x204 ∧ (after 0x9120 (small [(1, 7), (2, 7)])).pc = 0x202 ∧
    (after 0x9110 (small [])).pc = 0x202 := by decide

/-! ### Registers and ALU: the whole register file after the instruction -/

/-- A1, A2. -/
theorem test_setImmediate :
    (after 0x6A05 (small [])).v = regs [(10, 0x05)] ∧ (after 0x6FFF (small [])).v = regs [(15, 0xFF)] := by decide

/-- A3, A4. -/
theorem test_addImmediate :
    (after 0x7105 (small [(1, 0xFE)])).v = regs [(1, 0x03)] ∧
    (after 0x71FF (small [(15, 0x55)])).v = regs [(1, 0xFF), (15, 0x55)] := by decide

/-- A5. -/
theorem test_move : (after 0x8120 (small [(2, 0x33)])).v = regs [(1, 0x33), (2, 0x33)] := by decide

/-- A6. -/
theorem test_bitOr :
    (after 0x8121 (small [(1, 0xF0), (2, 0x0F), (15, 1)])).v = regs [(1, 0xFF), (2, 0x0F), (15, 1)] := by decide

/-- A7. -/
theorem test_bitAnd : (after 0x8122 (small [(1, 0xF0), (2, 0x3C)])).v = regs [(1, 0x30), (2, 0x3C)] := by decide

/-- A8, A9. -/
theorem test_bitXor :
    (after 0x8123 (small [(1, 0xF0), (2, 0x3C)])).v = regs [(1, 0xCC), (2, 0x3C)] ∧
    (after 0x8113 (small [(1, 0x5A)])).v = regs [] := by decide

/-- A10, A13, A14, A15. -/
theorem test_add :
    (after 0x8124 (small [(1, 0xC8), (2, 0x64)])).v = regs [(1, 0x2C), (2, 0x64), (15, 1)] ∧
    (after 0x8124 (small [(1, 0xFF), (2, 0xFF)])).v = regs [(1, 0xFE), (2, 0xFF), (15, 1)] ∧
    (after 0x8124 (small [(1, 0xFF), (15, 1)])).v = regs [(1, 0xFF)] ∧
    (after 0x8114 (small [(1, 0x80)])).v = regs [(15, 1)] := by decide

/-- A40, A41, A44: the flag first, the result last, operands latched. -/
theorem test_add_flag_register :
    (after 0x8F14 (small [(15, 0xF0), (1, 0x20)])).v = regs [(15, 0x10), (1, 0x20)] ∧
    (after 0x81F4 (small [(1, 0xFF), (15, 0x02)])).v = regs [(1, 0x01), (15, 1)] ∧
    (after 0x8FF4 (small [(15, 0x90)])).v = regs [(15, 0x20)] := by decide

/-- A16 to A19. -/
theorem test_sub :
    (after 0x8125 (small [(1, 0x05), (2, 0x07)])).v = regs [(1, 0xFE), (2, 0x07)] ∧
    (after 0x8125 (small [(1, 0x07), (2, 0x05)])).v = regs [(1, 0x02), (2, 0x05), (15, 1)] ∧
    (after 0x8125 (small [(1, 0x07), (2, 0x07)])).v = regs [(2, 0x07), (15, 1)] ∧
    (after 0x8125 (small [(2, 0x01)])).v = regs [(1, 0xFF), (2, 0x01)] := by decide

/-- A42, A45. -/
theorem test_sub_flag_register :
    (after 0x81F5 (small [(1, 0x05), (15, 0x03)])).v = regs [(1, 0x02), (15, 1)] ∧
    (after 0x8FF5 (small [(15, 0x09)])).v = regs [] := by decide

/-- A20 to A22, A46. -/
theorem test_shiftRight :
    (after 0x8106 (small [(1, 0x05)])).v = regs [(1, 0x02), (15, 1)] ∧
    (after 0x8126 (small [(1, 0x04), (2, 0xFF)])).v = regs [(1, 0x02), (2, 0xFF)] ∧
    (after 0x8106 (small [])).v = regs [] ∧ (after 0x8F06 (small [(15, 0x05)])).v = regs [(15, 0x02)] := by decide

/-- A23 to A25, A43. -/
theorem test_subReverse :
    (after 0x8127 (small [(1, 0x05), (2, 0x07)])).v = regs [(1, 0x02), (2, 0x07), (15, 1)] ∧
    (after 0x8127 (small [(1, 0x07), (2, 0x05)])).v = regs [(1, 0xFE), (2, 0x05)] ∧
    (after 0x8127 (small [(1, 0x07), (2, 0x07)])).v = regs [(2, 0x07), (15, 1)] ∧
    (after 0x81F7 (small [(1, 0x05), (15, 0x03)])).v = regs [(1, 0xFE)] := by decide

/-- A26 to A28, A47. -/
theorem test_shiftLeft :
    (after 0x810E (small [(1, 0x81)])).v = regs [(1, 0x02), (15, 1)] ∧
    (after 0x810E (small [(1, 0x40)])).v = regs [(1, 0x80)] ∧
    (after 0x810E (small [(1, 0xFF)])).v = regs [(1, 0xFE), (15, 1)] ∧
    (after 0x8F0E (small [(15, 0x81)])).v = regs [(15, 0x02)] := by decide

/-- A29, A30. -/
theorem test_randomAnd :
    (after 0xC30F (small []) 0xB7).v = regs [(3, 0x07)] ∧
    (after 0xC300 (small [(3, 0x55)]) 0xB7).v = regs [] := by decide

/-! ### Index and memory -/

/-- M1. -/
theorem test_setIndex : (after 0xA2F0 (small [])).i = 0x02F0 := by decide

/-- M2 to M4. -/
theorem test_addToIndex :
    (after 0xF21E (small [(2, 0x10)] 0x0300)).i = 0x0310 ∧ (after 0xF21E (small [(2, 1)] 0x0FFF)).i = 0x1000 ∧
    (after 0xF21E (small [(2, 1)] 0xFFFF)).i = 0x0000 ∧
    (after 0xF21E (small [(2, 1)] 0xFFFF)).v = regs [(2, 1)] := by decide

/-- M5, M7, M8. -/
theorem test_fontCharAddress :
    (after 0xF029 (small [(0, 0x0A)])).i = 0x0032 ∧ (after 0xF029 (small [(0, 0x10)])).i = 0x0050 ∧
    (after 0xF029 (small [(0, 0xFF)])).i = 0x04FB := by decide

/-- M9 (source property S4), M11. -/
theorem test_storeBcd :
    (after 0xF433 (small [(4, 0x9D)] 0x300)).mem =
      mem [(0x200, 0xF4), (0x201, 0x33), (0x300, 1), (0x301, 5), (0x302, 7)] ∧
    (after 0xF433 (small [] 0x300 [(0x300, 0xAA), (0x301, 0xAA), (0x302, 0xAA)])).mem =
      mem [(0x200, 0xF4), (0x201, 0x33)] := by decide

/-- M12, M13: the last legal block, and the first that faults with nothing written. -/
theorem test_storeBcd_edge :
    (after 0xF433 (small [(4, 0x64)] 0xFFD)).memRead 0xFFD = some 1 ∧
    after 0xF433 (small [(4, 0x64)] 0xFFE) =
      { (small [(4, 0x64)] 0xFFE).placeWord 0xF433 with
        halted := true, cause := 4, output := .report (.raised .memFault) } := by decide

/-- M14, M22. -/
theorem test_dumpRegisters :
    (after 0xF355 (small [(0, 0x11), (1, 0x22), (2, 0x33), (3, 0x77), (4, 0x44)] 0x400)).mem =
      mem [(0x200, 0xF3), (0x201, 0x55), (0x400, 0x11), (0x401, 0x22), (0x402, 0x33), (0x403, 0x77)] ∧
    (after 0xF355 (small [(3, 0x77)] 0x400)).i = 0x0404 := by decide

/-- M16, M17. -/
theorem test_dumpRegisters_edge :
    (after 0xFF55 (small [(15, 0x10)] 0xFF0)).memRead 0xFFF = some 0x10 ∧
    (after 0xFF55 (small [(15, 0x10)] 0xFF0)).i = 0x1000 ∧
    after 0xFF55 (small [(0, 0x10)] 0xFF1) =
      { (small [(0, 0x10)] 0xFF1).placeWord 0xFF55 with
        halted := true, cause := 4, output := .report (.raised .memFault) } := by decide

/-- M18. -/
theorem test_loadRegisters :
    (after 0xF365 (small [(4, 0x99)] 0x400 [(0x400, 0x11), (0x401, 0x22), (0x402, 0x33), (0x403, 0x44)])).v =
      regs [(0, 0x11), (1, 0x22), (2, 0x33), (3, 0x44), (4, 0x99)] ∧
    (after 0xF365 (small [] 0x400)).i = 0x0404 := by decide

/-- M19, M20. -/
theorem test_loadRegisters_edge :
    (after 0xFF65 (small [] 0x400 [(0x40F, 0x5A)])).v = regs [(15, 0x5A)] ∧
    after 0xF165 (small [] 0xFFF) =
      { (small [] 0xFFF).placeWord 0xF165 with
        halted := true, cause := 4, output := .report (.raised .memFault) } := by decide

/-! ### Display -/

/-- A display whose listed pixels, as (x, y), are set. -/
def pixels (l : List (Fin 64 × Fin 32)) : Display := l.foldl (fun d c => d.flip c.2 c.1) (Vector.replicate 32 0)

/-- G1, G2. -/
theorem test_clearScreen :
    (after 0x00E0 { State.reset with disp := pixels [(4, 3)], dirty := false }).disp = pixels [] ∧
    (after 0x00E0 { State.reset with dirty := false }).dirty = true := by decide

/-- G5, G6, G13, G14: row wrap, column wrap, a glyph row by row, one collision among toggles. -/
theorem test_drawSprite :
    (after 0xD121 (small [(1, 60)] 0x300 [(0x300, 0xFF)])).disp =
      pixels [(60, 0), (61, 0), (62, 0), (63, 0), (0, 0), (1, 0), (2, 0), (3, 0)] ∧
    (after 0xD122 (small [(2, 31)] 0x300 [(0x300, 0x80), (0x301, 0x80)])).disp = pixels [(0, 31), (0, 0)] ∧
    (after 0xD125 (small [] 0x005)).disp =
      pixels [(2, 0), (1, 1), (2, 1), (2, 2), (2, 3), (1, 4), (2, 4), (3, 4)] ∧
    (after 0xD121 { small [] 0x300 [(0x300, 0xC0)] with disp := pixels [(0, 0)] }).disp = pixels [(1, 0)] ∧
    (after 0xD121 { small [] 0x300 [(0x300, 0xC0)] with disp := pixels [(0, 0)] }).v = regs [(15, 1)] := by decide

/-- G8, G9, G10, G12: no row, a blank row, a fault, VF as the column. -/
theorem test_drawSprite_corners :
    after 0xD120 { small [(15, 1)] 0x1234 with dirty := false } =
      { (small [] 0x1234).placeWord 0xD120 with dirty := false, pc := 0x202, output := .report .ok } ∧
    (after 0xD121 { small [(15, 1)] 0x300 with dirty := false }).dirty = false ∧
    after 0xD122 (small [(15, 1)] 0xFFF) =
      { (small [(15, 1)] 0xFFF).placeWord 0xD122 with
        halted := true, cause := 4, output := .report (.raised .memFault) } ∧
    (after 0xDF11 (small [(15, 5), (1, 2)] 0x300 [(0x300, 0x80)])).disp = pixels [(5, 2)] ∧
    (after 0xDF11 (small [(15, 5), (1, 2)] 0x300 [(0x300, 0x80)])).v = regs [(1, 2)] := by decide

/-! ### Keypad and timers -/

/-- The reset state with one key down and `V[0]` as given. -/
def keyDown (k : KeyCode) (v0 : Byte) : State := { small [(0, v0)] with key := State.reset.key.set k true }

/-- K1, K2, K5. -/
theorem test_skipIfKeyPressed :
    (after 0xE09E (keyDown 5 0x05)).pc = 0x204 ∧ (after 0xE09E (small [(0, 0x05)])).pc = 0x202 ∧
    (after 0xE09E (keyDown 10 0x1A)).pc = 0x204 := by decide

/-- K3, K4. -/
theorem test_skipIfKeyNotPressed :
    (after 0xE0A1 (keyDown 5 0x05)).pc = 0x202 ∧ (after 0xE0A1 (small [(0, 0x05)])).pc = 0x204 := by decide

/-- K6. -/
theorem test_getDelay : (after 0xF307 { State.reset with dt := 0x2A }).v = regs [(3, 0x2A)] := by decide

/-- K7. -/
theorem test_setDelay : (after 0xF315 (small [(3, 0x3C)])).dt = 0x3C ∧ (after 0xF315 (small [(3, 0x3C)])).st = 0 := by
  decide

/-- K8. -/
theorem test_setSound : (after 0xF318 (small [(3, 0x05)])).st = 0x05 ∧ (after 0xF318 (small [(3, 0x05)])).dt = 0 := by
  decide

/-- K9: a key already held does not end the wait. -/
theorem test_waitKey :
    (after 0xF50A (keyDown 2 0)).blocked = true ∧ (after 0xF50A (keyDown 2 0)).ktarget = 5 ∧
    (after 0xF50A (keyDown 2 0)).pc = 0x202 ∧ (after 0xF50A (keyDown 2 0)).v = regs [] := by decide

/-! ### Events -/

/-- H1, H2. -/
theorem test_reset_event :
    event .reset { small [(1, 1)] 7 [(0x50, 9)] with halted := true, cause := 4, dirty := false } = State.reset ∧
    event .reset State.reset = State.reset ∧
    (List.range 5).map State.reset.memRead = [some 0xF0, some 0x90, some 0x90, some 0x90, some 0xF0] ∧
    State.reset.memRead 0x50 = some 0 ∧ State.reset.memRead 0x200 = some 0 := by decide

/-- H3. -/
theorem test_load_event :
    event (.load [0x00, 0xE0, 0x12, 0x00]) State.reset =
      { State.reset with mem := [(0x201, 0xE0), (0x202, 0x12)], output := .load .ok } := by decide

/-- H5, for every image one byte too long. -/
theorem test_load_too_large (bytes : List Byte) (h : bytes.length = 3585) :
    event (.load bytes) State.reset = { State.reset with output := .load .romTooLarge } := by
  have h' : bytes.length > Config.romMax := by rw [h]; decide
  simp only [event, applyEvent, State.onLoad, if_pos h', nextOf]

/-- H9 to H12. -/
theorem test_key_event :
    event (.key 10 true) { State.reset with blocked := true, ktarget := 3 } =
      { State.reset with key := State.reset.key.set 10 true, v := regs [(3, 0x0A)], ktarget := 3 } ∧
    (event (.key 10 false) { State.reset with blocked := true, ktarget := 3 }).blocked = true ∧
    (event (.key 1 true) (event (.key 0 true) { State.reset with blocked := true, ktarget := 15 })).v = regs [] := by
  decide

/-- H13, H14. -/
theorem test_take_display :
    event .takeDisplay State.reset =
      { State.reset with dirty := false, output := .display (some (pixels [])) } ∧
    event .takeDisplay { State.reset with dirty := false, disp := pixels [(0, 0)] } =
      { State.reset with dirty := false, disp := pixels [(0, 0)], output := .display none } := by decide

/-- K10 to K13. -/
theorem test_tick_event :
    event .tick { State.reset with dt := 3 } = { State.reset with dt := 2 } ∧
    event .tick { State.reset with dt := 1, st := 1 } = State.reset ∧
    event .tick State.reset = State.reset ∧
    event .tick { State.reset with blocked := true, dt := 9 } = { State.reset with blocked := true, dt := 8 } := by
  decide

/-- R97: in one cycle KEY ends the wait and TICK counts down before the STEP reads both; the read-out comes last, and
`rst` suppresses every other strobe. -/
theorem test_cycle_order :
    (match cycle ⟨false, none, some (7, true), true, some 0, true⟩
        ({ State.reset with blocked := true, ktarget := 0, dt := 3 }.placeWord 0xF107) with
      | .next (t, π) => some (t.v, t.dirty, π.dirty, π.report)
      | .fault _ | .refused _ => none) = some (regs [(0, 7), (1, 2)], false, true, 7) ∧
    cycle ⟨true, some (0x300, 1), none, true, some 0, true⟩ State.reset =
      .next (State.reset, State.reset.pins 0) := ⟨by decide, rfl⟩

/-- R97: a LOAD byte alone, with no STEP: the byte is written and `report` is 0 (R96). -/
theorem test_cycle_load_only :
    cycle ⟨false, some (0x300, 0x5A), none, false, none, false⟩ State.reset =
      .next ({ State.reset with mem := [(0x300, 0x5A)] }, ⟨pixels [], true, 0, false, 0, false, false⟩) := rfl

/-- `withFetchWord` makes the very next step run the word, whatever stood before. -/
theorem test_withFetchWord_runs :
    (nextOf State.reset (step (State.reset.withFetchWord 16 0x6A05))).v = regs [(10, 0x05)] ∧
    (nextOf State.reset (step ({ State.reset with blocked := true }.withFetchWord 16 0x1ABC))).pc = 0xABC := by decide

/-! ### Witnesses: states and operands that meet the hypotheses of the statements, at boundary values

Each is named after its statement; where a statement has several clauses, one conjunct is a witness of each. -/

theorem witness_DecodeOfEncodeIsIdentity :
    (Instr.drawSprite 15 15 15).wellFormed = true ∧ (Instr.shiftRight 15).wellFormed = true := by decide

theorem witness_EncodeOfDecodeKeepsTheWord :
    decodeWord 0x8AB6 = some (.shiftRight 10) ∧ encode (.shiftRight 10) = 0x8A06 ∧
    decodeWord 0x8FFE = some (.shiftLeft 15) ∧ encode (.shiftLeft 15) = 0x8F0E ∧
    decodeWord 0xDFFF = some (.drawSprite 15 15 15) ∧ encode (.drawSprite 15 15 15) = 0xDFFF := by decide

theorem witness_StepAppliesTheNextEvent :
    State.reset.pending = [] ∧ { State.reset with pending := [.tick, .reset] }.pending = .tick :: [.reset] := by decide

/-- Both clauses at the last address a fetch may start from. -/
theorem witness_StepRunsTheDecodedInstruction :
    let s := { small [] 0 [(0xFFE, 0x60), (0xFFF, 0x07)] with pc := 0xFFE }
    s.halted = false ∧ s.blocked = false ∧ s.memRead s.pc.toNat = some 0x60 ∧
    s.memRead (s.pc.toNat + 1) = some 0x07 ∧ decodeWord ((0x60 : Byte) ++ (0x07 : Byte)) = some (.setImmediate 0 7) ∧
    s.pending = [] ∧ { s with pending := [.step 0xB7] }.pending = .step 0xB7 :: [] := by decide

theorem witness_StepIsIdleWhenHaltedOrBlocked :
    ({ State.reset with halted := true }.halted = true ∨ { State.reset with halted := true }.blocked = true) ∧
    ({ State.reset with blocked := true }.halted = true ∨ { State.reset with blocked := true }.blocked = true) := by
  decide

/-- The last word that can be fetched, and the first `PC` that faults. -/
theorem witness_FetchReadsBigEndianOrFaults :
    (let s := { small [] 0 [(0xFFE, 0x60), (0xFFF, 0x07)] with pc := 0xFFE }
     s.pc.toNat < 0xFFF ∧ s.memRead s.pc.toNat = some 0x60 ∧ s.memRead (s.pc.toNat + 1) = some 0x07) ∧
    (let s := { State.reset with pc := 0xFFF }
     s.halted = false ∧ s.blocked = false ∧ s.pc.toNat ≥ 0xFFF) := by decide

theorem witness_UnknownOpcodeIsReportedNoOp :
    State.reset.halted = false ∧ State.reset.blocked = false ∧ State.reset.fetch = some 0x0000 ∧
    decodeWord 0x0000 = none := by decide

/-- One row of R105's table each: return, a plain instruction, a skip taken. -/
theorem witness_PcAfterEachInstruction :
    (∃ t, exec .ret { State.reset with sp := 1 } = .next t ∧ State.reset.halted = false ∧ t.halted = false) ∧
    (∃ t, exec (.storeBcd 0) (small [] 0xFFD) = .next t ∧ t.halted = false) ∧
    (∃ t, exec (.skipIfEqualImmediate 0 0) State.reset = .next t ∧ t.halted = false ∧ t.pc = 0x204) :=
  ⟨⟨_, rfl, by decide, by decide⟩, ⟨_, rfl, by decide⟩, ⟨_, rfl, by decide, by decide⟩⟩

theorem witness_FaultsArePrecise :
    ∃ t, exec (.call 0) { State.reset with sp := 16 } = .next t ∧ State.reset.halted = false ∧ t.halted = true :=
  ⟨_, rfl, by decide, by decide⟩

/-- `halted = false` is the only hypothesis; the two sides of each boundary are in the tests of the instructions. -/
theorem witness_FaultsExactlyWhen : State.reset.halted = false ∧ (small [] 0x1000).halted = false := by decide

theorem witness_HaltedStaysHaltedUntilReset :
    let s := { State.reset with halted := true, cause := 4,
                                pending := [.tick, .step 0, .key 1 true, .takeDisplay, .load [0x12]] }
    s.halted = true ∧ s.blocked = false ∧ ∀ e ∈ s.pending, e.isReset = false := by decide

/-- `SP` at 1, at 16 and at 0. -/
theorem witness_ReturnPopsIntoPc :
    0 < { State.reset with sp := 1 }.sp.val ∧ 0 < { State.reset with sp := 16 }.sp.val ∧ State.reset.sp.val = 0 := by
  decide

/-- `SP` at 0, at 15 and at 16. -/
theorem witness_CallPushesReturnAddress :
    State.reset.sp.val < 16 ∧ { State.reset with sp := 15 }.sp.val < 16 ∧ { State.reset with sp := 16 }.sp.val = 16 := by
  decide

theorem witness_CallThenReturnComesBack : { State.reset with sp := 15 }.sp.val < 16 := by decide

theorem witness_RandomAndForEveryByte : { State.reset with rnd := 0xFF }.rnd = 0xFF := by decide

/-- `I` at 0xFFD and at 0xFFE. -/
theorem witness_StoreBcdWritesThreeDigits :
    (small [] 0xFFD).i.toNat + 2 ≤ 0xFFF ∧ (small [] 0xFFE).i.toNat + 2 > 0xFFF := by decide

/-- `x = 15` at 0xFF0 and at 0xFF1, `x = 0` at 0xFFF and at 0x1000. -/
theorem witness_DumpRegistersCopiesToMemory :
    (small [] 0xFF0).i.toNat + (15 : RegIdx).val ≤ 0xFFF ∧ (small [] 0xFF1).i.toNat + (15 : RegIdx).val > 0xFFF ∧
    (small [] 0xFFF).i.toNat + (0 : RegIdx).val ≤ 0xFFF ∧ (small [] 0x1000).i.toNat + (0 : RegIdx).val > 0xFFF := by
  decide

theorem witness_LoadRegistersCopiesFromMemory :
    (small [] 0xFF0).i.toNat + (15 : RegIdx).val ≤ 0xFFF ∧ (small [] 0xFF1).i.toNat + (15 : RegIdx).val > 0xFFF ∧
    (small [] 0xFFF).i.toNat + (0 : RegIdx).val ≤ 0xFFF ∧ (small [] 0xFFFF).i.toNat + (0 : RegIdx).val > 0xFFF := by
  decide

theorem witness_DumpThenLoadRoundTrip : (small [] 0xFF0).i.toNat + (15 : RegIdx).val ≤ 0xFFF := by decide

/-- The last place two bytes can be dumped over the next instruction. -/
theorem witness_StoredBytesAreFetchedNext :
    let s := { small [(0, 0x12), (1, 0x08)] 0xFFE with pc := 0xFFC }
    1 ≤ (1 : RegIdx).val ∧ s.i = s.pc + 2 ∧ s.i.toNat + (1 : RegIdx).val ≤ 0xFFF := by decide

theorem witness_ByteAccessesAreChecked :
    Memory.writeByte Config.defaultFont [] 0xFFF 0x5A = some [(0xFFF, 0x5A)] ∧
    Memory.readByte Config.defaultFont [] 0x1000 = none := by decide

/-- Every clause: no row at a far `I`; 15 rows at the last `I`; a covered pixel that is set and one that is clear; no
covered pixel; the first `I` that faults. -/
theorem witness_DrawSpriteXorsWrappedSprite :
    ((0 : Nat) = 0 ∨ (small [] 0xFFFF).i.toNat + 0 - 1 ≤ 0xFFF) ∧
    ((15 : Nat) ≤ 15 ∧ (small [] 0xFF1).i.toNat + 15 - 1 ≤ 0xFFF) ∧
    ((15 : Nat) ≥ 1 ∧ (small [] 0xFF2).i.toNat + 15 - 1 > 0xFFF) ∧
    (small [(1, 63), (2, 31)] 0).spriteCovers 1 2 1 31 63 ∧ (small [(1, 63), (2, 31)] 0).spriteCovers 1 2 2 0 63 ∧
    { small [] 0 with disp := pixels [(0, 0)] }.disp.pixel 0 0 = true ∧
    ¬ (small [] 0).spriteCovers 0 0 0 0 0 :=
  ⟨by decide, by decide, by decide, ⟨0, 0, 0xF0, by decide⟩, ⟨1, 0, 0x90, by decide⟩, by decide,
    fun ⟨_, _, _, h, _⟩ => Nat.not_lt_zero _ h⟩

/-- A sprite with a set bit, and one of no rows, on the clear display. -/
theorem witness_DrawTwiceRestoresDisplay :
    (15 : Nat) ≤ 15 ∧ (14 : RegIdx) ≠ 15 ∧ (0 : RegIdx) ≠ 15 ∧ (small [] 0xFF1).i.toNat + 15 - 1 ≤ 0xFFF ∧
    (∀ py px, State.reset.disp.pixel py px = false) ∧ State.reset.spriteCovers 14 0 15 0 0 ∧
    ¬ ∃ py px, State.reset.spriteCovers 14 0 0 py px :=
  ⟨by decide, by decide, by decide, by decide, by decide +kernel, ⟨0, 0, 0xF0, by decide⟩,
    fun ⟨_, _, _, _, _, h, _⟩ => Nat.not_lt_zero _ h⟩

/-- A key that is down and one that is up, the second selected by the low nibble of 0xFF. -/
theorem witness_KeySkips :
    (keyDown 5 0x05).key[(keyDown 5 0x05).v[(0 : RegIdx)].toNat % 16]'(Nat.mod_lt _ (by decide)) = true ∧
    (keyDown 5 0xFF).key[(keyDown 5 0xFF).v[(0 : RegIdx)].toNat % 16]'(Nat.mod_lt _ (by decide)) = false := by decide

theorem witness_TicksSaturateAtZero :
    { State.reset with dt := 2, pending := [.tick, .tick, .tick] }.pending = List.replicate 3 .tick := by decide

/-- Both arms of the statement: a key-down while blocked, and events that end no wait. -/
theorem witness_KeyEventUpdatesAndUnblocks :
    (true = true ∧ { State.reset with blocked := true }.blocked = true) ∧
    ¬ (false = true ∧ { State.reset with blocked := true }.blocked = true) ∧
    ¬ (true = true ∧ State.reset.blocked = true) := by decide

theorem witness_BlockedUntilKeyDown :
    let s := { State.reset with blocked := true, ktarget := 15,
                                pending := [.step 0, .tick, .key 3 false, .takeDisplay, .key 15 true] }
    s.blocked = true ∧ s.pending = [.step 0, .tick, .key 3 false, .takeDisplay] ++ [.key 15 true] ∧
    ∀ e ∈ ([.step 0, .tick, .key 3 false, .takeDisplay] : List Event), e.isReset = false ∧ e.isKeyDown = false := by
  decide

theorem witness_GlyphsLieWhereFontCharPoints :
    (15 : Nat) < 16 ∧ (4 : Nat) < 5 ∧ (small [(15, 15)]).v[(15 : RegIdx)].toNat = 15 := by decide

/-- The longest image, and one byte more. -/
theorem witness_LoadCopiesOrRejects :
    (List.replicate 3584 (0xAA : Byte)).length ≤ 3584 ∧ (List.replicate 3585 (0xAA : Byte)).length > 3584 := by
  rw [List.length_replicate, List.length_replicate]; decide

theorem witness_TakeDisplayIfDirty :
    State.reset.dirty = true ∧ { State.reset with dirty := false }.dirty = false := by decide

/-- Every strobe low, every strobe but `rst` high, and `rst` high with others. -/
theorem witness_StrobesActInFixedOrder :
    (⟨false, none, none, false, none, false⟩ : Strobes).rst = false ∧
    (⟨false, some (0xFFF, 0xAA), some (15, true), true, some 0xB7, true⟩ : Strobes).rst = false ∧
    (⟨true, some (0x200, 0xAA), some (0, false), true, some 0, true⟩ : Strobes).rst = true := by decide

theorem witness_RegistersKeptButDestinations :
    (∃ t, exec (.add 1 2) (small [(1, 0xFF), (2, 0xFF)]) = .next t) ∧ (Instr.add 1 2).names 2 = false ∧
    ¬ ((2 : RegIdx) = 15 ∧ (Instr.add 1 2).writesFlag = true) ∧
    (Instr.loadRegisters 14).names 15 = false ∧ ¬ ((15 : RegIdx) = 15 ∧ (Instr.loadRegisters 14).writesFlag = true) :=
  ⟨⟨_, rfl⟩, by decide, by decide, by decide, by decide⟩

/-- An address below and one above the stored block, and every address for a form that stores nothing. -/
theorem witness_MemoryKeptButStoredBytes :
    (∃ t, exec (.dumpRegisters 15) (small [] 0x300) = .next t) ∧
    (0x2FF < (small [] 0x300).i.toNat ∨ (small [] 0x300).i.toNat + (Instr.dumpRegisters 15).storedBytes ≤ 0x2FF) ∧
    (0x310 < (small [] 0x300).i.toNat ∨ (small [] 0x300).i.toNat + (Instr.dumpRegisters 15).storedBytes ≤ 0x310) ∧
    (0x300 < (small [] 0x300).i.toNat ∨ (small [] 0x300).i.toNat + (Instr.add 0 0).storedBytes ≤ 0x300) :=
  ⟨⟨_, rfl⟩, by decide, by decide, by decide⟩

/-- set-immediate meets every premise of every clause. -/
theorem witness_OtherStateKeptButItsWriters :
    (∃ t, exec (.setImmediate 0 0) State.reset = .next t ∧ t.halted = State.reset.halted) ∧
    State.reset.halted = false ∧ (∀ nnn, Instr.setImmediate 0 0 ≠ .call nnn) ∧ Instr.setImmediate 0 0 ≠ .ret ∧
    (∀ x, Instr.setImmediate 0 0 ≠ .setDelay x) ∧ (∀ x, Instr.setImmediate 0 0 ≠ .setSound x) ∧
    Instr.setImmediate 0 0 ≠ .clearScreen ∧ (∀ x y n, Instr.setImmediate 0 0 ≠ .drawSprite x y n) ∧
    (∀ x, Instr.setImmediate 0 0 ≠ .waitKey x) ∧ (∀ nnn, Instr.setImmediate 0 0 ≠ .setIndex nnn) ∧
    (∀ x, Instr.setImmediate 0 0 ≠ .addToIndex x) ∧ (∀ x, Instr.setImmediate 0 0 ≠ .fontCharAddress x) ∧
    (∀ x, Instr.setImmediate 0 0 ≠ .dumpRegisters x) ∧ (∀ x, Instr.setImmediate 0 0 ≠ .loadRegisters x) ∧
    (∀ x, Instr.setImmediate 0 0 ≠ .storeBcd x) :=
  ⟨⟨_, rfl, by decide⟩, by decide, nofun, nofun, nofun, nofun, nofun, nofun, nofun, nofun, nofun, nofun, nofun, nofun,
    nofun⟩

theorem witness_KeysChangeOnlyByTheHost :
    (∃ t, step { State.reset with pending := [.tick] } = .next t) ∧
    (∀ c p, { State.reset with pending := [.tick] }.nextEvent ≠ .key c p) ∧
    { State.reset with pending := [.tick] }.nextEvent ≠ .reset := ⟨⟨_, rfl⟩, nofun, nofun⟩

theorem witness_FontIsNeverWritten : ∃ t, step { State.reset with pending := [.load [0x12]] } = .next t := ⟨_, rfl⟩

theorem witness_UnreadStateIsInvisible : ∃ t, exec (.drawSprite 0 0 15) State.reset = .next t := ⟨_, rfl⟩

/-- Stacks that differ at the first entry above `SP = 15`. -/
theorem witness_StackAboveSpIsInvisible :
    (∃ t, exec .ret { State.reset with sp := 15 } = .next t) ∧
    ∀ (k : Nat) (h : k < { State.reset with sp := 15 }.sp.val),
      (State.reset.stack.set 15 0xABC)[k]'(Nat.lt_trans h (by decide)) =
        State.reset.stack[k]'(Nat.lt_trans h (by decide)) := ⟨⟨_, rfl⟩, by decide⟩

theorem witness_SelfJumpIsAFixedPoint : (small [] 0 [(0x200, 0x12)]).finished :=
  ⟨by decide, by decide, 0x1200, 0x200, by decide, by decide, by decide⟩

theorem witness_EveryStepKeepsInvariant :
    (small [] 0 [(0x200, 0x12)]).Inv ∧ ∃ t, step { small [] 0 [(0x200, 0x12)] with pending := [.tick] } = .next t :=
  ⟨⟨by decide, by decide, by decide⟩, ⟨_, rfl⟩⟩

end Sys2Proof.Tests
end

section
/-! Proofs for the family 00_scope.md: the parameter `FONT` (R6) passes unchanged through every operation, every
instruction and every event. -/

namespace Sys2Proof.Machine

/-! ### The shared operations keep the parameter -/

@[simp] theorem State.onReset_font (s : State) : s.onReset.font = s.font := rfl

theorem State.push_font {a : Word} {s t : State} (h : s.push a = some t) : t.font = s.font := by
  unfold State.push at h
  split at h <;> cases h
  rfl

theorem State.pop_font {a : Word} {s t : State} (h : s.pop = some (a, t)) : t.font = s.font := by
  unfold State.pop at h
  split at h <;> cases h
  rfl

/-- A store keeps the parameter when what follows it does. -/
theorem State.storing_font {a : Nat} {bytes : List Byte} {k : State → State} (hk : ∀ t, (k t).font = t.font)
    (s : State) : (s.storing a bytes k).font = s.font := by
  rw [State.storing_eq]
  split
  · exact hk _
  · exact State.raise_font _ s

/-- A load keeps the parameter when what follows it does. -/
theorem State.loading_font {a n : Nat} {k : List Byte → State → State} (hk : ∀ bytes t, (k bytes t).font = t.font)
    (s : State) : (s.loading a n k).font = s.font := by
  rw [State.loading_eq]
  split
  · exact hk _ s
  · exact State.raise_font _ s

/-! ### Instructions and events keep the parameter -/

theorem execReturn_font {s t : State} (h : execReturn s = .next t) : t.font = s.font := by
  unfold execReturn at h
  split at h <;> cases h
  · next hpop => exact (State.pop_font hpop :)
  · exact State.raise_font _ s

theorem execCall_font {nnn : Addr} {s t : State} (h : execCall nnn s = .next t) : t.font = s.font := by
  unfold execCall at h
  split at h <;> cases h
  · next hpush => exact (State.push_font hpush :)
  · exact State.raise_font _ s

/-- Only return, call and the four memory instructions branch; every other instruction updates named fields, and
`FONT` is none of them. -/
theorem exec_font {i : Instr} {s t : State} (h : exec i s = .next t) : t.font = s.font := by
  cases i with
  | ret => exact execReturn_font h
  | call nnn => exact execCall_font h
  | drawSprite x y n => cases h; exact State.loading_font (by intros; rfl) s
  | storeBcd x => cases h; exact State.storing_font (by intros; rfl) s
  | dumpRegisters x => cases h; exact State.storing_font (by intros; rfl) s
  | loadRegisters x => cases h; exact State.loading_font (by intros; rfl) s
  | _ => cases h; rfl

theorem stepEvent_font {rnd : Byte} {s t : State} (h : stepEvent rnd s = .next t) : t.font = s.font := by
  unfold stepEvent at h
  split at h
  · cases h; exact State.idle_font s
  · split at h
    · cases h; exact State.raise_font _ s
    · split at h
      · exact (exec_font h).trans (State.beginStep_font rnd s)
      · cases h; exact State.unknownOpcode_font s

theorem applyEvent_font {e : Event} {s t : State} (h : applyEvent e s = .next t) : t.font = s.font := by
  cases e with
  | reset => cases h; exact State.onReset_font s
  | load bytes => cases h; exact State.onLoad_font bytes s
  | key code pressed => cases h; exact State.onKey_font code pressed s
  | takeDisplay => cases h; exact State.onTakeDisplay_font s
  | step rnd => exact stepEvent_font h
  | tick => cases h; exact State.onTick_font s

/-- Settles O54: a step takes the next event off the list and applies it, and neither writes `FONT`. -/
theorem fontIsNeverWritten : Obligations.FontIsNeverWritten := fun s _ h =>
  (applyEvent_font h).trans (State.takeEvent_font s)

end Sys2Proof.Machine
end

section
/-! Proofs for the family 10_state.md: what each instruction may write and read of the state (section 1 of that file),
the timers, the wait for a key, and the invariant every step keeps. -/

namespace Sys2Proof.Machine

/-! ### The two instructions that branch on `SP` -/

theorem exec_ret_of_pos {s : State} (h : 0 < s.sp.val) :
    exec .ret s =
      .next { s with pc := s.stack[s.sp.val - 1]'(by omega), sp := ⟨s.sp.val - 1, by omega⟩ } := by
  simp [exec, execReturn, State.pop_of_pos s h]

theorem exec_ret_of_empty {s : State} (h : s.sp.val = 0) : exec .ret s = .next (s.raise .stackUnderflow) := by
  simp [exec, execReturn, State.pop_of_empty s h]

theorem exec_call_of_lt {s : State} (nnn : Addr) (h : s.sp.val < 16) :
    exec (.call nnn) s =
      .next { s with stack := s.stack.set s.sp.val (s.pc + 2), sp := ⟨s.sp.val + 1, by omega⟩,
                     pc := nnn.setWidth 16 } := by
  simp [exec, execCall, State.push_of_lt _ s h]

theorem exec_call_of_full {s : State} (nnn : Addr) (h : s.sp.val = 16) :
    exec (.call nnn) s = .next (s.raise .stackOverflow) := by
  simp [exec, execCall, State.push_of_full _ s h]

/-- `SP` counts 0 to 16, so a stack is full or has room (10_state.md R27). -/
theorem State.sp_full_or_lt (s : State) : s.sp.val = 16 ∨ s.sp.val < 16 := by omega

/-! ### What an instruction may write -/

/-- The "written by" column of 10_state.md section 1: which fields an instruction that does not fault may write. -/
def Footprint (s t : State) : Instr → Prop
  | .clearScreen => t = { s with pc := t.pc, disp := t.disp, dirty := t.dirty }
  | .drawSprite _ _ _ => t = { s with pc := t.pc, v := t.v, disp := t.disp, dirty := t.dirty }
  | .ret => t = { s with pc := t.pc, sp := t.sp }
  | .call _ => t = { s with pc := t.pc, stack := t.stack, sp := t.sp }
  | .jump _ | .jumpWithOffset _ | .skipIfEqualImmediate _ _ | .skipIfNotEqualImmediate _ _
  | .skipIfRegistersEqual _ _ | .skipIfRegistersNotEqual _ _ | .skipIfKeyPressed _ | .skipIfKeyNotPressed _ =>
    t = { s with pc := t.pc }
  | .setImmediate _ _ | .addImmediate _ _ | .move _ _ | .bitOr _ _ | .bitAnd _ _ | .bitXor _ _ | .add _ _ | .sub _ _
  | .shiftRight _ | .subReverse _ _ | .shiftLeft _ | .randomAnd _ _ | .getDelay _ => t = { s with pc := t.pc, v := t.v }
  | .setIndex _ | .addToIndex _ | .fontCharAddress _ => t = { s with pc := t.pc, i := t.i }
  | .storeBcd _ => t = { s with pc := t.pc, mem := t.mem }
  | .dumpRegisters _ => t = { s with pc := t.pc, mem := t.mem, i := t.i }
  | .loadRegisters _ => t = { s with pc := t.pc, v := t.v, i := t.i }
  | .waitKey _ => t = { s with pc := t.pc, blocked := t.blocked, ktarget := t.ktarget }
  | .setDelay _ => t = { s with pc := t.pc, dt := t.dt }
  | .setSound _ => t = { s with pc := t.pc, st := t.st }

/-- An instruction either raises a fault, and then does nothing else, or stays within its footprint. -/
theorem exec_raises_or_footprint {i : Instr} {s t : State} (h : exec i s = .next t) :
    (∃ f, t = s.raise f) ∨ Footprint s t i := by
  cases i with
  | ret =>
    rcases Nat.eq_zero_or_pos s.sp.val with h0 | hpos
    · rw [exec_ret_of_empty h0] at h; cases h; exact .inl ⟨_, rfl⟩
    · rw [exec_ret_of_pos hpos] at h; cases h; exact .inr rfl
  | call nnn =>
    rcases s.sp_full_or_lt with hfull | hlt
    · rw [exec_call_of_full nnn hfull] at h; cases h; exact .inl ⟨_, rfl⟩
    · rw [exec_call_of_lt nnn hlt] at h; cases h; exact .inr rfl
  | drawSprite _ _ _ | loadRegisters _ =>
    cases h; rw [State.loading_eq]; split
    · exact .inr rfl
    · exact .inl ⟨_, rfl⟩
  | storeBcd _ | dumpRegisters _ =>
    cases h; rw [State.storing_eq]; split
    · exact .inr rfl
    · exact .inl ⟨_, rfl⟩
  | _ => cases h; exact .inr rfl

/-- `s` with every field that some instruction writes other than by a fault taken from `t`. -/
def State.overwrite (s t : State) : State :=
  { s with mem := t.mem, v := t.v, i := t.i, pc := t.pc, stack := t.stack, sp := t.sp, dt := t.dt, st := t.st,
           disp := t.disp, dirty := t.dirty, blocked := t.blocked, ktarget := t.ktarget }

theorem Footprint.eq_overwrite {i : Instr} {s t : State} (hw : Footprint s t i) : t = s.overwrite t := by
  cases i <;> exact Eq.trans hw (congrArg s.overwrite hw).symm

/-- A projection of the state that neither a fault nor the instruction's footprint touches keeps its value. -/
theorem exec_keeps {α : Type} (π : State → α) {i : Instr} {s t : State} (h : exec i s = .next t)
    (hraise : ∀ f, π (s.raise f) = π s) (hwrite : Footprint s t i → π t = π s) : π t = π s := by
  rcases exec_raises_or_footprint h with ⟨f, rfl⟩ | hw
  · exact hraise f
  · exact hwrite hw

/-! ### Field by field: what an instruction leaves as it was -/

section
variable {i : Instr} {s t : State}

theorem exec_stack (h : exec i s = .next t) (hcall : ∀ nnn, i ≠ .call nnn) : t.stack = s.stack :=
  exec_keeps State.stack h (fun _ => rfl) fun hw => by
    cases i with
    | call nnn => exact absurd rfl (hcall nnn)
    | _ => exact (congrArg State.stack hw :)

theorem exec_sp (h : exec i s = .next t) (hcall : ∀ nnn, i ≠ .call nnn) (hret : i ≠ .ret) : t.sp = s.sp :=
  exec_keeps State.sp h (fun _ => rfl) fun hw => by
    cases i with
    | call nnn => exact absurd rfl (hcall nnn)
    | ret => exact absurd rfl hret
    | _ => exact (congrArg State.sp hw :)

theorem exec_dt (h : exec i s = .next t) (hset : ∀ x, i ≠ .setDelay x) : t.dt = s.dt :=
  exec_keeps State.dt h (fun _ => rfl) fun hw => by
    cases i with
    | setDelay x => exact absurd rfl (hset x)
    | _ => exact (congrArg State.dt hw :)

theorem exec_st (h : exec i s = .next t) (hset : ∀ x, i ≠ .setSound x) : t.st = s.st :=
  exec_keeps State.st h (fun _ => rfl) fun hw => by
    cases i with
    | setSound x => exact absurd rfl (hset x)
    | _ => exact (congrArg State.st hw :)

theorem exec_display (h : exec i s = .next t) (hclear : i ≠ .clearScreen) (hdraw : ∀ x y n, i ≠ .drawSprite x y n) :
    (t.disp, t.dirty) = (s.disp, s.dirty) :=
  exec_keeps (fun u => (u.disp, u.dirty)) h (fun _ => rfl) fun hw => by
    cases i with
    | clearScreen => exact absurd rfl hclear
    | drawSprite x y n => exact absurd rfl (hdraw x y n)
    | _ => exact (congrArg (fun u => (u.disp, u.dirty)) hw :)

theorem exec_wait (h : exec i s = .next t) (hwait : ∀ x, i ≠ .waitKey x) :
    (t.blocked, t.ktarget) = (s.blocked, s.ktarget) :=
  exec_keeps (fun u => (u.blocked, u.ktarget)) h (fun _ => rfl) fun hw => by
    cases i with
    | waitKey x => exact absurd rfl (hwait x)
    | _ => exact (congrArg (fun u => (u.blocked, u.ktarget)) hw :)

theorem exec_index (h : exec i s = .next t) (hset : ∀ nnn, i ≠ .setIndex nnn) (hadd : ∀ x, i ≠ .addToIndex x)
    (hfont : ∀ x, i ≠ .fontCharAddress x) (hdump : ∀ x, i ≠ .dumpRegisters x) (hload : ∀ x, i ≠ .loadRegisters x) :
    t.i = s.i :=
  exec_keeps State.i h (fun _ => rfl) fun hw => by
    cases i with
    | setIndex nnn => exact absurd rfl (hset nnn)
    | addToIndex x => exact absurd rfl (hadd x)
    | fontCharAddress x => exact absurd rfl (hfont x)
    | dumpRegisters x => exact absurd rfl (hdump x)
    | loadRegisters x => exact absurd rfl (hload x)
    | _ => exact (congrArg State.i hw :)

theorem exec_mem (h : exec i s = .next t) (hbcd : ∀ x, i ≠ .storeBcd x) (hdump : ∀ x, i ≠ .dumpRegisters x) :
    t.mem = s.mem :=
  exec_keeps State.mem h (fun _ => rfl) fun hw => by
    cases i with
    | storeBcd x => exact absurd rfl (hbcd x)
    | dumpRegisters x => exact absurd rfl (hdump x)
    | _ => exact (congrArg State.mem hw :)

/-- The keys, `UNK` and the model's inputs: no instruction writes them, faulting or not. -/
theorem exec_inputs (h : exec i s = .next t) :
    (t.key, t.unk, t.rnd, t.draws, t.pending) = (s.key, s.unk, s.rnd, s.draws, s.pending) :=
  exec_keeps (fun u => (u.key, u.unk, u.rnd, u.draws, u.pending)) h (fun _ => rfl) fun hw =>
    (congrArg (fun u => (u.key, u.unk, u.rnd, u.draws, u.pending)) hw.eq_overwrite :)

/-- Only a fault writes `HALTED`, `CAUSE` and the report. -/
theorem Footprint.status (hw : Footprint s t i) :
    t.halted = s.halted ∧ t.cause = s.cause ∧ t.output = s.output :=
  ⟨(congrArg State.halted hw.eq_overwrite :), (congrArg State.cause hw.eq_overwrite :),
    (congrArg State.output hw.eq_overwrite :)⟩

/-- The instructions that cannot raise (41_step_cycle.md R106). -/
theorem exec_status (h : exec i s = .next t) (hcall : ∀ nnn, i ≠ .call nnn) (hret : i ≠ .ret)
    (hbcd : ∀ x, i ≠ .storeBcd x) (hdump : ∀ x, i ≠ .dumpRegisters x) (hload : ∀ x, i ≠ .loadRegisters x)
    (hdraw : ∀ x y n, i ≠ .drawSprite x y n) :
    t.halted = s.halted ∧ t.cause = s.cause ∧ t.output = s.output := by
  cases i with
  | call nnn => exact absurd rfl (hcall nnn)
  | ret => exact absurd rfl hret
  | storeBcd x => exact absurd rfl (hbcd x)
  | dumpRegisters x => exact absurd rfl (hdump x)
  | loadRegisters x => exact absurd rfl (hload x)
  | drawSprite x y n => exact absurd rfl (hdraw x y n)
  | _ => cases h; exact ⟨rfl, rfl, rfl⟩

/-- An instruction that does not halt a running core leaves `CAUSE` and the report alone. -/
theorem exec_cause_output (h : exec i s = .next t) (hsame : t.halted = s.halted) (hrun : s.halted = false) :
    t.cause = s.cause ∧ t.output = s.output := by
  rcases exec_raises_or_footprint h with ⟨f, rfl⟩ | hw
  · exact absurd (hsame.trans hrun) (by simp)
  · exact hw.status.2

end

/-- Settles O52: clause by clause from what an instruction may write. -/
theorem otherStateKeptButItsWriters : Obligations.OtherStateKeptButItsWriters := by
  intro i s t h
  obtain ⟨hkey, hunk, hrnd, hdraws, hpending⟩ : t.key = s.key ∧ t.unk = s.unk ∧ t.rnd = s.rnd ∧ t.draws = s.draws ∧
      t.pending = s.pending := by simpa only [Prod.mk.injEq] using exec_inputs h
  exact ⟨exec_stack h, exec_sp h, exec_dt h, exec_st h, hkey,
    fun hclear hdraw => Prod.mk.inj (exec_display h hclear hdraw), fun hwait => Prod.mk.inj (exec_wait h hwait),
    exec_index h, hunk, exec_font h, hrnd, hdraws, hpending, exec_status h, exec_cause_output h⟩

/-! ### Registers -/

theorem State.setV_get_other {x r : RegIdx} (b : Byte) (s : State) (h : (r == x) = false) :
    (s.setV x b).v[r] = s.v[r] := by
  rw [State.setV_get, if_neg (by simpa using h)]

theorem State.setFlagThen_get_other {x r : RegIdx} (c : Bool) (b : Byte) (s : State) (h : (r == x) = false)
    (hflag : r ≠ VF) : (s.setFlagThen c x b).v[r] = s.v[r] := by
  rw [State.setFlagThen, State.setV_get_other _ _ h, State.setV_get, if_neg hflag]

theorem State.drawn_get_other {r : RegIdx} (b : Blit) (s : State) (hflag : r ≠ VF) :
    (s.drawn b).v[r] = s.v[r] := by
  rw [State.drawn, State.setV_get, if_neg hflag]

/-- Registers above the last one listed keep their values. -/
theorem setRegsFrom_get_above {bytes : List Byte} {r : RegIdx} (v : Vector Byte 16) (h : bytes.length ≤ r.val) :
    (setRegsFrom 0 bytes v)[r] = v[r] := by
  refine (setRegsFrom_get bytes 0 v r r.isLt).trans ?_
  rw [if_pos (Nat.zero_le _), List.getD_eq_default _ _ (by omega)]
  rfl

/-- Settles O50: the ALU forms write `V[x]`, the flag writers VF too, load-registers V0..Vx, and no other instruction
has a register in its footprint. -/
theorem registersKeptButDestinations : Obligations.RegistersKeptButDestinations := by
  intro i s t r h hname hflag
  cases i with
  | setImmediate x _ | addImmediate x _ | move x _ | bitOr x _ | bitAnd x _ | bitXor x _ | randomAnd x _
  | getDelay x => cases h; exact State.setV_get_other _ s hname
  | add x _ | sub x _ | subReverse x _ | shiftRight x | shiftLeft x =>
    cases h; exact State.setFlagThen_get_other _ _ s hname fun hr => hflag ⟨hr, rfl⟩
  | drawSprite x y n =>
    cases h
    rw [State.loading_eq]
    split
    · exact State.drawn_get_other _ s fun hr => hflag ⟨hr, rfl⟩
    · rfl
  | loadRegisters x =>
    have hx : x < r := not_le.mp (of_decide_eq_false hname)
    cases h
    rw [State.loading_eq]
    split
    · exact setRegsFrom_get_above s.v (by simpa using hx)
    · rfl
  | _ => exact congrArg (·[r]) (exec_keeps State.v h (fun _ => rfl) fun hw => (congrArg State.v hw :))

/-! ### Memory -/

theorem State.memRead_congr {s t : State} (hmem : t.mem = s.mem) (hfont : t.font = s.font) (a : Nat) :
    t.memRead a = s.memRead a := by
  rw [State.memRead, State.memRead, hmem, hfont]

theorem Memory.read_copyIn_outside (font : Vector Byte 80) {bytes : List Byte} (m : Memory) {a b : Nat}
    (h : b < a ∨ a + bytes.length ≤ b) : Memory.read font (Memory.copyIn font m a bytes) b = Memory.read font m b := by
  rw [Memory.read_copyIn]
  split
  · exact List.getD_eq_default _ _ (by omega)
  · rfl

/-- A store changes no byte outside its block when what follows it changes none. -/
theorem State.storing_memRead_outside {a b : Nat} {bytes : List Byte} {k : State → State} (s : State)
    (hk : ∀ t : State, (k t).memRead b = t.memRead b) (h : b < a ∨ a + bytes.length ≤ b) :
    (s.storing a bytes k).memRead b = s.memRead b := by
  rw [State.storing_eq]
  split
  · rw [hk]
    simp only [State.memRead, Memory.readByte, Memory.read_copyIn_outside s.font s.mem h]
  · rfl

/-- Settles O51: the two storing instructions write their block at `I`, and no other has memory in its footprint. -/
theorem memoryKeptButStoredBytes : Obligations.MemoryKeptButStoredBytes := by
  intro i s t a h ha
  cases i with
  | storeBcd x => cases h; exact s.storing_memRead_outside (fun _ => rfl) ha
  | dumpRegisters x =>
    cases h
    exact s.storing_memRead_outside (fun _ => rfl) (by rw [State.regsThrough_length]; exact ha)
  | _ => exact State.memRead_congr (exec_mem h nofun nofun) (exec_font h) a

/-! ### The keys -/

theorem exec_key {i : Instr} {s t : State} (h : exec i s = .next t) : t.key = s.key := congrArg Prod.fst (exec_inputs h)

theorem stepEvent_key {rnd : Byte} {s t : State} (h : stepEvent rnd s = .next t) : t.key = s.key := by
  rcases stepEvent_cases h with ⟨_, rfl⟩ | ⟨_, _, rfl⟩ | ⟨_, w, _, _, rfl⟩ | ⟨_, w, i, _, _, hexec⟩
  · exact State.idle_key s
  · exact State.raise_key _ s
  · exact State.unknownOpcode_key s
  · exact (exec_key hexec).trans (State.beginStep_key rnd s)

/-- Settles O53: event by event. -/
theorem keysChangeOnlyByTheHost : Obligations.KeysChangeOnlyByTheHost := by
  intro s t h hkey hreset
  rcases step_cases h with ⟨he, _⟩ | ⟨bytes, _, rfl⟩ | ⟨c, p, he, _⟩ | ⟨_, rfl⟩ | ⟨_, rfl⟩ | ⟨rnd, _, hstep⟩
  · exact absurd he hreset
  · rw [State.onLoad_key, State.takeEvent_key]
  · exact absurd he (hkey c p)
  · rw [State.onTakeDisplay_key, State.takeEvent_key]
  · rw [State.onTick_key, State.takeEvent_key]
  · rw [stepEvent_key hstep, State.takeEvent_key]

/-! ### The invariant -/

section
variable {s t : State}

/-- The invariant speaks of memory, `BLOCKED`, `HALTED` and `CAUSE` only, and clearing `BLOCKED` keeps it. -/
theorem State.Inv.of_eq (hs : s.Inv) (hfont : t.font = s.font) (hmem : t.mem = s.mem)
    (hblocked : t.blocked = true → s.blocked = true) (hhalted : t.halted = s.halted) (hcause : t.cause = s.cause) :
    t.Inv := by
  obtain ⟨hwf, hexcl, hcode⟩ := hs
  refine ⟨by rwa [hfont, hmem], fun ⟨hb, hh⟩ => hexcl ⟨hblocked hb, hhalted ▸ hh⟩, ?_⟩
  rwa [State.causeOk, hhalted, hcause]

theorem State.Inv.withMem {m : Memory} (hs : s.Inv) (hm : Memory.wf s.font m = true) : { s with mem := m }.Inv := by
  obtain ⟨_, hexcl, hcode⟩ := hs
  exact ⟨hm, hexcl, hcode⟩

/-- A core that is not blocked may fault: every fault has a fatal code (60_exceptions.md R170). -/
theorem State.Inv.raise (f : Fault) (hs : s.Inv) (hb : s.blocked = false) : (s.raise f).Inv := by
  obtain ⟨hwf, _, _⟩ := hs
  exact ⟨hwf, fun hboth => Bool.false_ne_true (hb.symm.trans hboth.1), by cases f <;> rfl⟩

/-- A running core may block. -/
theorem State.Inv.block (x : RegIdx) (hs : s.Inv) (hh : s.halted = false) :
    { s with blocked := true, ktarget := x }.Inv := by
  obtain ⟨hwf, _, hcode⟩ := hs
  exact ⟨hwf, fun hboth => Bool.false_ne_true (hh.symm.trans hboth.2), hcode⟩

theorem State.Inv.advance (hs : s.Inv) : s.advance.Inv := hs.of_eq rfl rfl id rfl rfl

theorem State.Inv.storing {a : Nat} {bytes : List Byte} {k : State → State} (hs : s.Inv) (hb : s.blocked = false)
    (hk : ∀ t : State, t.Inv → (k t).Inv) : (s.storing a bytes k).Inv := by
  unfold State.storing
  split
  · next m hm => exact hk _ (hs.withMem (Memory.writeBytes_wf hs.1 hm))
  · exact hs.raise _ hb

/-- The two storing instructions and wait-key write a field of the invariant; every other instruction can break it only
by a fault, which it meets unblocked. -/
theorem exec_inv {i : Instr} (h : exec i s = .next t) (hs : s.Inv) (hh : s.halted = false) (hb : s.blocked = false) :
    t.Inv := by
  cases i with
  | storeBcd x => cases h; exact hs.storing hb fun _ ht => ht.advance
  | dumpRegisters x => cases h; exact hs.storing hb fun _ ht => ht.of_eq rfl rfl id rfl rfl
  | waitKey x => cases h; exact (hs.block x hh).advance
  | _ =>
    rcases exec_raises_or_footprint h with ⟨f, rfl⟩ | hw
    · exact hs.raise f hb
    · obtain ⟨hhalted, hcause, _⟩ := hw.status
      exact hs.of_eq (exec_font h) (congrArg State.mem hw :) ((congrArg State.blocked hw :).symm.trans) hhalted
        hcause

theorem stepEvent_inv {rnd : Byte} (h : stepEvent rnd s = .next t) (hs : s.Inv) : t.Inv := by
  rcases stepEvent_cases h with ⟨_, rfl⟩ | ⟨hgate, _, rfl⟩ | ⟨_, w, _, _, rfl⟩ | ⟨hgate, w, i, _, _, hexec⟩
  · exact hs.of_eq rfl rfl id rfl rfl
  · exact hs.raise _ (Bool.or_eq_false_iff.mp hgate).2
  · exact hs.of_eq rfl rfl id rfl rfl
  · obtain ⟨hh, hb⟩ := Bool.or_eq_false_iff.mp hgate
    exact exec_inv hexec (hs.of_eq rfl rfl id rfl rfl) hh hb

theorem State.Inv.onLoad (bytes : List Byte) (hs : s.Inv) : (s.onLoad bytes).Inv := by
  unfold State.onLoad
  split
  · exact hs.of_eq rfl rfl id rfl rfl
  · next hlen =>
    have hfits : Config.romBase + bytes.length ≤ 4096 := by simp at hlen ⊢; omega
    exact (hs.withMem (Memory.copyIn_wf bytes hs.1 hfits)).of_eq rfl rfl id rfl rfl

theorem State.Inv.onKey (c : KeyCode) (p : Bool) (hs : s.Inv) : (s.onKey c p).Inv := by
  refine hs.of_eq (s.onKey_font c p) (s.onKey_mem c p) ?_ (s.onKey_halted c p) (s.onKey_cause c p)
  cases hwait : (p && s.blocked) with
  | true => exact fun _ => (Bool.and_eq_true_iff.mp hwait).2
  | false => rw [State.onKey_of_not_waiting hwait]; exact id

end

theorem State.resetWith_inv (font : Vector Byte 80) : (State.resetWith font).Inv :=
  ⟨Memory.wf_nil font, nofun, rfl⟩

/-- Settles O58: memory lists nothing after reset, and no flag is set. -/
theorem resetMeetsInvariant : Obligations.ResetMeetsInvariant :=
  ⟨State.resetWith_inv Config.defaultFont, State.resetWith_inv⟩

/-- Settles O59: taking the event off the list touches no field of the invariant, and each of the six events keeps
it. -/
theorem everyStepKeepsInvariant : Obligations.EveryStepKeepsInvariant := by
  intro s t hs h
  have htake : s.takeEvent.Inv := hs.of_eq s.takeEvent_font s.takeEvent_mem s.takeEvent_blocked.symm.trans
    s.takeEvent_halted s.takeEvent_cause
  rcases step_cases h with ⟨_, rfl⟩ | ⟨bytes, _, rfl⟩ | ⟨c, p, _, rfl⟩ | ⟨_, rfl⟩ | ⟨_, rfl⟩ | ⟨rnd, _, hstep⟩
  · exact (State.resetWith_inv _).of_eq rfl rfl id rfl rfl
  · exact htake.onLoad bytes
  · exact htake.onKey c p
  · exact htake.of_eq (State.onTakeDisplay_font _) (State.onTakeDisplay_mem _)
      (State.onTakeDisplay_blocked _).symm.trans (State.onTakeDisplay_halted _) (State.onTakeDisplay_cause _)
  · exact htake.of_eq rfl rfl id rfl rfl
  · exact stepEvent_inv hstep htake

/-! ### Two runs side by side -/

/-- A store in two states with the same memory: both succeed alike, or both raise. -/
theorem State.storing_rel {R : State → State → Prop} {a : Nat} {bytes : List Byte} {k : State → State} {s s' : State}
    (hfont : s'.font = s.font) (hmem : s'.mem = s.mem) (hk : ∀ m, R (k { s with mem := m }) (k { s' with mem := m }))
    (hraise : ∀ f, R (s.raise f) (s'.raise f)) : R (s.storing a bytes k) (s'.storing a bytes k) := by
  have hcopy : Memory.copyIn s'.font s'.mem a bytes = Memory.copyIn s.font s.mem a bytes := by rw [hfont, hmem]
  rw [State.storing_eq, State.storing_eq, hcopy]
  split
  · exact hk _
  · exact hraise _

/-- A load in two states with the same memory: both read the same bytes, or both raise. -/
theorem State.loading_rel {R : State → State → Prop} {a n : Nat} {k k' : List Byte → State → State} {s s' : State}
    (hfont : s'.font = s.font) (hmem : s'.mem = s.mem) (hk : ∀ bytes, R (k bytes s) (k' bytes s'))
    (hraise : ∀ f, R (s.raise f) (s'.raise f)) : R (s.loading a n k) (s'.loading a n k') := by
  rw [State.loading_eq, State.loading_eq, hfont, hmem]
  split
  · exact hk _
  · exact hraise _

/-! ### What no instruction reads: `ST`, `DIRTY`, `UNK`, `CAUSE`, `HALTED` -/

/-- Values for the five fields that no instruction reads. -/
structure Unread where
  /-- `ST` (10_state.md R28). -/
  st : Byte
  /-- `DIRTY` (R31). -/
  dirty : Bool
  /-- `UNK` (R34). -/
  unk : Bool
  /-- `CAUSE` (R33). -/
  cause : BitVec 3
  /-- `HALTED` (R33). -/
  halted : Bool

/-- The values a state holds in the five fields. -/
def State.unread (s : State) : Unread := ⟨s.st, s.dirty, s.unk, s.cause, s.halted⟩

/-- `s` with the five fields replaced. -/
def State.withUnread (u : Unread) (s : State) : State :=
  { s with st := u.st, dirty := u.dirty, unk := u.unk, cause := u.cause, halted := u.halted }

/-- A field held `b` before and `a` after in one run, `b'` and `a'` in the other: the instruction wrote the same value
in both runs, or kept in both what it found. -/
def Passes {α : Type} (b b' a a' : α) : Prop := a' = a ∨ (a = b ∧ a' = b')

theorem Passes.kept {α : Type} (b b' : α) : Passes b b' b b' := .inr ⟨rfl, rfl⟩

/-- A field found the same in both runs is left the same. -/
theorem Passes.eq {α : Type} {b a a' : α} (h : Passes b b a a') : a' = a := by
  rcases h with h | ⟨ha, ha'⟩
  · exact h
  · exact ha'.trans ha.symm

theorem Passes.found_or_written {α : Type} {b b' a a' : α} (h : Passes b b' a a') : a' = b' ∨ a' = a :=
  h.symm.imp_left And.right

/-- Two runs of one instruction, from `s` to `t` and from `s'` to `t'`: the states after differ at most in the five
fields, and each of these passes. -/
def UnreadPass (s s' t t' : State) : Prop :=
  t' = t.withUnread t'.unread ∧ Passes s.st s'.st t.st t'.st ∧ Passes s.dirty s'.dirty t.dirty t'.dirty ∧
  Passes s.unk s'.unk t.unk t'.unk ∧ Passes s.cause s'.cause t.cause t'.cause ∧
  Passes s.halted s'.halted t.halted t'.halted

section
variable {u : Unread} {s t : State}

/-- An update that touches none of the five fields passes them all. -/
theorem UnreadPass.of_kept (h : t.unread = s.unread) : UnreadPass s (s.withUnread u) t (t.withUnread u) := by
  obtain ⟨hst, hdirty, hunk, hcause, hhalted⟩ := Unread.mk.inj h
  exact ⟨rfl, .inr ⟨hst, rfl⟩, .inr ⟨hdirty, rfl⟩, .inr ⟨hunk, rfl⟩, .inr ⟨hcause, rfl⟩, .inr ⟨hhalted, rfl⟩⟩

/-- A fault writes `HALTED` and `CAUSE` whatever they held. -/
theorem UnreadPass.raise (f : Fault) : UnreadPass s (s.withUnread u) (s.raise f) ((s.withUnread u).raise f) :=
  ⟨rfl, .kept _ _, .kept _ _, .kept _ _, .inl rfl, .inl rfl⟩

/-- A draw sets `DIRTY` if it changed a pixel, and else keeps it. -/
theorem UnreadPass.drawn (b : Blit) :
    UnreadPass s (s.withUnread u) (s.drawn b).advance ((s.withUnread u).drawn b).advance := by
  refine ⟨rfl, .kept _ _, ?_, .kept _ _, .kept _ _, .kept _ _⟩
  cases hchanged : b.changed with
  | true => exact .inl (by simp [hchanged])
  | false => exact .inr ⟨by simp [hchanged], by simp [hchanged]⟩

/-- The simulation behind O55: the same instruction from a state with other values in the five fields. -/
theorem exec_withUnread {i : Instr} (u : Unread) (h : exec i s = .next t) :
    ∃ t', exec i (s.withUnread u) = .next t' ∧ UnreadPass s (s.withUnread u) t t' := by
  cases i with
  | clearScreen => cases h; exact ⟨_, rfl, rfl, .kept _ _, .inl rfl, .kept _ _, .kept _ _, .kept _ _⟩
  | setSound x => cases h; exact ⟨_, rfl, rfl, .inl rfl, .kept _ _, .kept _ _, .kept _ _, .kept _ _⟩
  | ret =>
    rcases Nat.eq_zero_or_pos s.sp.val with h0 | hpos
    · rw [exec_ret_of_empty h0] at h; cases h; exact ⟨_, exec_ret_of_empty h0, .raise _⟩
    · rw [exec_ret_of_pos hpos] at h; cases h
      exact ⟨_, exec_ret_of_pos (s := s.withUnread u) hpos, .of_kept rfl⟩
  | call nnn =>
    rcases s.sp_full_or_lt with hfull | hlt
    · rw [exec_call_of_full nnn hfull] at h; cases h; exact ⟨_, exec_call_of_full nnn hfull, .raise _⟩
    · rw [exec_call_of_lt nnn hlt] at h; cases h
      exact ⟨_, exec_call_of_lt (s := s.withUnread u) nnn hlt, .of_kept rfl⟩
  | drawSprite x y n => cases h; exact ⟨_, rfl, State.loading_rel rfl rfl (fun _ => .drawn _) .raise⟩
  | loadRegisters x => cases h; exact ⟨_, rfl, State.loading_rel rfl rfl (fun _ => .of_kept rfl) .raise⟩
  | storeBcd x | dumpRegisters x =>
    cases h; exact ⟨_, rfl, State.storing_rel rfl rfl (fun _ => .of_kept rfl) .raise⟩
  | _ => cases h; exact ⟨_, rfl, .of_kept rfl⟩

end

/-- Settles O55: each clause is the simulation with one of the five fields changed; the other four, found the same in
both runs, are left the same. -/
theorem unreadStateIsInvisible : Obligations.UnreadStateIsInvisible := by
  intro i s t h
  refine ⟨fun b => ?_, fun b => ?_, fun b => ?_, fun c => ?_, fun b => ?_⟩
  · obtain ⟨t', h', ht', hst, hdirty, hunk, hcause, hhalted⟩ := exec_withUnread { s.unread with st := b } h
    rw [State.unread, hdirty.eq, hunk.eq, hcause.eq, hhalted.eq] at ht'
    exact ⟨t', h', ht', hst.found_or_written⟩
  · obtain ⟨t', h', ht', hst, hdirty, hunk, hcause, hhalted⟩ := exec_withUnread { s.unread with dirty := b } h
    rw [State.unread, hst.eq, hunk.eq, hcause.eq, hhalted.eq] at ht'
    exact ⟨t', h', ht', hdirty.found_or_written⟩
  · obtain ⟨t', h', ht', hst, hdirty, hunk, hcause, hhalted⟩ := exec_withUnread { s.unread with unk := b } h
    rw [State.unread, hst.eq, hdirty.eq, hcause.eq, hhalted.eq] at ht'
    exact ⟨t', h', ht', hunk.found_or_written⟩
  · obtain ⟨t', h', ht', hst, hdirty, hunk, hcause, hhalted⟩ := exec_withUnread { s.unread with cause := c } h
    rw [State.unread, hst.eq, hdirty.eq, hunk.eq, hhalted.eq] at ht'
    exact ⟨t', h', ht', hcause.found_or_written⟩
  · obtain ⟨t', h', ht', hst, hdirty, hunk, hcause, hhalted⟩ := exec_withUnread { s.unread with halted := b } h
    rw [State.unread, hst.eq, hdirty.eq, hunk.eq, hcause.eq] at ht'
    exact ⟨t', h', ht', hhalted.found_or_written⟩

/-! ### The stack at and above `SP` -/

/-- The states differ at most in stack entries at or above `SP`. -/
def State.SameBelowSp (t t' : State) : Prop :=
  t' = { t with stack := t'.stack } ∧ ∀ (k : Nat) (_ : k < t.sp.val), t'.stack[k] = t.stack[k]

section
variable {s t : State} {st : Vector Word 16}

/-- Stacks that agree below `SP` agree one entry further after the same word is pushed on both. -/
theorem stack_set_agree (w : Word) (hlt : s.sp.val < 16)
    (hst : ∀ (k : Nat) (_ : k < s.sp.val), st[k] = s.stack[k]) (k : Nat) (hk : k < s.sp.val + 1) :
    (st.set s.sp.val w)[k] = (s.stack.set s.sp.val w)[k] := by
  rw [Vector.getElem_set, Vector.getElem_set]
  split
  · rfl
  · exact hst k (by omega)

/-- The simulation behind O56. -/
theorem exec_withStack {i : Instr} (h : exec i s = .next t) (hst : ∀ (k : Nat) (_ : k < s.sp.val), st[k] = s.stack[k]) :
    ∃ t', exec i { s with stack := st } = .next t' ∧ t.SameBelowSp t' := by
  cases i with
  | ret =>
    rcases Nat.eq_zero_or_pos s.sp.val with h0 | hpos
    · rw [exec_ret_of_empty h0] at h; cases h
      exact ⟨_, exec_ret_of_empty (s := { s with stack := st }) h0, rfl, hst⟩
    · rw [exec_ret_of_pos hpos] at h; cases h
      refine ⟨_, exec_ret_of_pos (s := { s with stack := st }) hpos, ?_, fun k hk => hst k (by simp at hk; omega)⟩
      simp only [hst (s.sp.val - 1) (by omega)]
  | call nnn =>
    rcases s.sp_full_or_lt with hfull | hlt
    · rw [exec_call_of_full nnn hfull] at h; cases h
      exact ⟨_, exec_call_of_full (s := { s with stack := st }) nnn hfull, rfl, hst⟩
    · rw [exec_call_of_lt nnn hlt] at h; cases h
      exact ⟨_, exec_call_of_lt (s := { s with stack := st }) nnn hlt, rfl, stack_set_agree _ hlt hst⟩
  | drawSprite x y n | loadRegisters x =>
    cases h; exact ⟨_, rfl, State.loading_rel rfl rfl (fun _ => ⟨rfl, hst⟩) fun _ => ⟨rfl, hst⟩⟩
  | storeBcd x | dumpRegisters x =>
    cases h; exact ⟨_, rfl, State.storing_rel rfl rfl (fun _ => ⟨rfl, hst⟩) fun _ => ⟨rfl, hst⟩⟩
  | _ => cases h; exact ⟨_, rfl, rfl, hst⟩

end

/-- Settles O56: only call and return touch the stack, a call at `SP` and a return just below it. -/
theorem stackAboveSpIsInvisible : Obligations.StackAboveSpIsInvisible := fun _ _ _ _ h hst => exec_withStack h hst

/-! ### Runs of pending events -/

theorem step_of_pending {s : State} {e : Event} {es : List Event} (h : s.pending = e :: es) :
    step s = applyEvent e { s with pending := es } := by
  obtain ⟨hnext, htake⟩ := State.nextEvent_cons h
  rw [step, hnext, htake]

theorem run_succ_of_step {M : Host.Core} {s t : M.State} (n : Nat) (h : M.step s = .next t) :
    M.run (n + 1) s = M.run n t := by
  rw [Host.Core.run, h]

theorem core_run_succ {s t : State} (n : Nat) (h : step s = .next t) : core.run (n + 1) s = core.run n t :=
  run_succ_of_step (M := core) n h

/-! ### The timers -/

theorem countDown_toNat (b : Byte) : (countDown b).toNat = b.toNat - 1 := by
  unfold countDown
  split
  · next h => simp [h]
  · next h => bv_omega

/-- Settles O42: one TICK is one step of the subtraction. -/
theorem ticksSaturateAtZero : Obligations.TicksSaturateAtZero := by
  intro n
  induction n with
  | zero =>
    intro s hs
    exact ⟨s, rfl, rfl, rfl, by rw [← (show s.pending = [] from hs)]⟩
  | succ n ih =>
    intro s hs
    have hstep : step s = .next { s with pending := List.replicate n .tick }.onTick := step_of_pending hs
    obtain ⟨t, hrun, hdt, hst, ht⟩ := ih { s with pending := List.replicate n .tick }.onTick rfl
    refine ⟨t, (core_run_succ n hstep).trans hrun, ?_, ?_, ht⟩
    · rw [hdt, State.onTick_dt, countDown_toNat, Nat.sub_sub, Nat.add_comm]
    · rw [hst, State.onTick_st, countDown_toNat, Nat.sub_sub, Nat.add_comm]

/-! ### Waiting for a key -/

/-- From `s` to `t` the core went on waiting: blocked, at the same `PC`, with the same registers and target. -/
structure KeepsWaiting (s t : State) : Prop where
  /-- Still blocked. -/
  blocked : t.blocked = true
  /-- At the same `PC`. -/
  pc : t.pc = s.pc
  /-- With the same registers. -/
  v : t.v = s.v
  /-- For the same register to write. -/
  ktarget : t.ktarget = s.ktarget

theorem KeepsWaiting.trans {s t u : State} (h : KeepsWaiting s t) (h' : KeepsWaiting t u) : KeepsWaiting s u :=
  ⟨h'.blocked, h'.pc.trans h.pc, h'.v.trans h.v, h'.ktarget.trans h.ktarget⟩

/-- No event but RESET and a key-down ends the wait; the STEP finds the gate closed (41_step_cycle.md R101). -/
theorem applyEvent_keepsWaiting {e : Event} {s : State} (hb : s.blocked = true) (hreset : e.isReset = false)
    (hkey : e.isKeyDown = false) :
    ∃ t, applyEvent e s = .next t ∧ KeepsWaiting s t ∧ t.pending = s.pending := by
  cases e with
  | reset => cases hreset
  | load bytes => exact ⟨_, rfl, ⟨by simpa using hb, by simp, by simp, by simp⟩, by simp⟩
  | key c p =>
    cases p with
    | true => cases hkey
    | false => exact ⟨_, congrArg Host.Outcome.next (State.onKey_of_not_waiting rfl), ⟨hb, rfl, rfl, rfl⟩, rfl⟩
  | takeDisplay => exact ⟨_, rfl, ⟨by simpa using hb, by simp, by simp, by simp⟩, by simp⟩
  | step rnd => exact ⟨_, stepEvent_of_gate rnd (by simp [hb]), ⟨hb, rfl, rfl, rfl⟩, rfl⟩
  | tick => exact ⟨_, rfl, ⟨hb, rfl, rfl, rfl⟩, rfl⟩

/-- The wait goes on through any number of such events, and the run with it. -/
theorem core_run_keepsWaiting (rest es : List Event) : ∀ {s : State}, s.blocked = true → s.pending = es ++ rest →
    (∀ e ∈ es, e.isReset = false ∧ e.isKeyDown = false) →
    ∃ t : State, KeepsWaiting s t ∧ t.pending = rest ∧ ∀ k, core.run (es.length + k) s = core.run k t := by
  induction es with
  | nil => intro s hb hp _; exact ⟨s, ⟨hb, rfl, rfl, rfl⟩, hp, fun k => by rw [List.length_nil, Nat.zero_add]⟩
  | cons e es ih =>
    intro s hb hp hes
    obtain ⟨⟨hreset, hkey⟩, htail⟩ := List.forall_mem_cons.mp hes
    have htake : KeepsWaiting s { s with pending := es ++ rest } := ⟨hb, rfl, rfl, rfl⟩
    obtain ⟨t, happly, hwait, htp⟩ := applyEvent_keepsWaiting htake.blocked hreset hkey
    obtain ⟨u, hwait', hup, hrun⟩ := ih hwait.blocked htp htail
    refine ⟨u, (htake.trans hwait).trans hwait', hup, fun k => ?_⟩
    rw [List.length_cons, Nat.add_right_comm, core_run_succ _ ((step_of_pending hp).trans happly), hrun]

/-- Settles O44: the wait goes on through the events before the key-down, which then ends it. -/
theorem blockedUntilKeyDown : Obligations.BlockedUntilKeyDown := by
  intro es code s hb hp hes
  obtain ⟨t, ⟨htb, hpc, hv, hkt⟩, htp, hrun⟩ := core_run_keepsWaiting [.key code true] es hb hp hes
  have hlast : step t = .next { t with pending := [], key := t.key.set code true, blocked := false, output := .none,
                                       v := t.v.set t.ktarget (BitVec.ofNat 8 code.val) } :=
    (step_of_pending htp).trans (congrArg Host.Outcome.next (State.onKey_of_waiting htb))
  refine ⟨t, _, hrun 0, htb, hpc, hv, hkt, (hrun 1).trans (core_run_succ 0 hlast), rfl, hpc, ?_⟩
  simp only [hv, hkt]

/-! ### The glyphs -/

theorem Memory.read_nil (font : Vector Byte 80) {a : Nat} (h : a < 80) : Memory.read font [] a = font[a] := by
  simp [Memory.read, Memory.lookup, Memory.blank, h]

theorem glyphAddress_toNat (b : Byte) : (glyphAddress b).toNat = 5 * b.toNat := by
  have := b.isLt
  rw [glyphAddress, BitVec.toNat_ofNat]
  omega

/-- Settles O46: after RESET no address is listed, so a byte below 80 reads as the font, and no glyph address wraps. -/
theorem glyphsLieWhereFontCharPoints : Obligations.GlyphsLieWhereFontCharPoints := by
  intro font d r hd hr x s
  refine ⟨?_, fun hx => ⟨_, rfl, (glyphAddress_toNat s.v[x]).trans (by rw [hx])⟩⟩
  rw [State.memRead_of_le _ (by omega)]
  exact congrArg some (Memory.read_nil font (by omega))

end Sys2Proof.Machine
end

section
/-! Proofs for the family 20_memory.md: the checked byte accesses (R52, R54), and a dump over the next instruction as
the next fetch reads it (R60). -/

namespace Sys2Proof.Machine

/-! ### Checked byte accesses -/

theorem Memory.readByte_isSome (font : Vector Byte 80) (m : Memory) (a : Nat) :
    (Memory.readByte font m a).isSome = true ↔ a ≤ 0xFFF := by
  rw [Memory.readByte, Option.isSome_ite]

theorem Memory.writeByte_isSome (font : Vector Byte 80) (m : Memory) (a : Nat) (b : Byte) :
    (Memory.writeByte font m a b).isSome = true ↔ a ≤ 0xFFF := by
  rw [Memory.writeByte, Option.isSome_ite]

theorem Memory.writeByte_eq_some {font : Vector Byte 80} {m m' : Memory} {a : Nat} {b : Byte} :
    Memory.writeByte font m a b = some m' ↔ a ≤ 0xFFF ∧ Memory.write font m a b = m' := by
  rw [Memory.writeByte, Option.ite_none_right_eq_some, Option.some.injEq]

/-- Settles O34: a write that goes through is the plain write, whatever memory lists. -/
theorem byteAccessesAreChecked : Obligations.ByteAccessesAreChecked := by
  intro font m a b
  refine ⟨Memory.readByte_isSome font m a, Memory.writeByte_isSome font m a b, fun m' h => ?_⟩
  obtain ⟨ha, rfl⟩ := Memory.writeByte_eq_some.mp h
  refine ⟨?_, fun c hc => ?_⟩
  · rw [Memory.readByte, if_pos ha, Memory.read_write, if_pos rfl]
  · rw [Memory.readByte, Memory.readByte, Memory.read_write, if_neg hc]

/-! ### Dumped bytes -/

theorem Memory.read_copyIn_inside (font : Vector Byte 80) {bytes : List Byte} (m : Memory) (a : Nat) {k : Nat}
    (h : k < bytes.length) : Memory.read font (Memory.copyIn font m a bytes) (a + k) = bytes[k] := by
  rw [Memory.read_copyIn, if_pos (Nat.le_add_right a k), Nat.add_sub_cancel_left, List.getD_eq_getElem _ _ h]

/-- A dump that does not fault. -/
theorem exec_dumpRegisters_of_le {x : RegIdx} {s : State} (h : s.i.toNat + x.val ≤ 0xFFF) :
    exec (.dumpRegisters x) s =
      .next ({ s with mem := Memory.copyIn s.font s.mem s.i.toNat (s.regsThrough x) }.bumpIndex x).advance := by
  rw [exec, execDumpRegisters, State.storing_eq, State.regsThrough_length, if_pos (by omega)]

theorem exec_dumpRegisters_memRead {x : RegIdx} {s t : State} {k : Nat} (h : exec (.dumpRegisters x) s = .next t)
    (hle : s.i.toNat + x.val ≤ 0xFFF) (hk : k ≤ x.val) : t.memRead (s.i.toNat + k) = some s.v[k] := by
  have hlen : k < (s.regsThrough x).length := by rw [State.regsThrough_length]; omega
  rw [exec_dumpRegisters_of_le hle] at h
  cases h
  rw [State.memRead_of_le _ (by omega)]
  exact congrArg some ((Memory.read_copyIn_inside s.font s.mem s.i.toNat hlen).trans (s.regsThrough_getElem x k hlen))

/-! ### Fetch -/

theorem wordOfBytes_eq_ofNat (hi lo : Byte) : wordOfBytes hi lo = BitVec.ofNat 16 (hi.toNat * 256 + lo.toNat) := by
  have := hi.isLt
  have := lo.isLt
  apply BitVec.eq_of_toNat_eq
  rw [wordOfBytes, BitVec.toNat_append, ← Nat.shiftLeft_add_eq_or_of_lt lo.isLt, Nat.shiftLeft_eq, BitVec.toNat_ofNat,
    Nat.mod_eq_of_lt (by omega)]

/-- The fetched word is big-endian (R53). -/
theorem State.fetch_of_memRead {s : State} {hi lo : Byte} (hhi : s.memRead s.pc.toNat = some hi)
    (hlo : s.memRead (s.pc.toNat + 1) = some lo) :
    s.fetch = some (BitVec.ofNat 16 (hi.toNat * 256 + lo.toNat)) := by
  rw [State.fetch, hhi, hlo, ← wordOfBytes_eq_ofNat]

/-- Settles O33: the dump leaves `PC` at the old `I`, where V0 and V1 now lie, and the fetch reads them. -/
theorem storedBytesAreFetchedNext : Obligations.StoredBytesAreFetchedNext := by
  intro x s hx hi hle
  obtain ⟨t, hexec, hpc⟩ : ∃ t, exec (.dumpRegisters x) s = .next t ∧ t.pc = s.i :=
    ⟨_, exec_dumpRegisters_of_le hle, hi.symm⟩
  refine ⟨t, hexec, hpc, State.fetch_of_memRead ?_ ?_⟩ <;> rw [hpc]
  · exact exec_dumpRegisters_memRead hexec hle (Nat.zero_le _)
  · exact exec_dumpRegisters_memRead hexec hle hx

end Sys2Proof.Machine
end

section
/-! Proofs for the family 30_encoding.md: encoding and decoding are inverse (R82), the dispatch by nibbles is the opcode
map (R74, R75), the unknown words are R77's table, and, because the decoder is total (R78), every step answers. -/

namespace Sys2Proof

/-! ### Decoding what was encoded -/

/-- The field cutters read back from each layout what the encoder laid out there; the sprite height must fit its
field. -/
theorem decodeWord_encode {i : Instr} (h : i.wellFormed = true) : decodeWord (encode i) = some i := by
  cases i with
  | drawSprite x y n =>
    have hn : n < 16 := Nat.lt_succ_of_le (of_decide_eq_true h)
    simp [encode, decodeWord, Nat.mod_eq_of_lt hn]
  | clearScreen | ret => rfl
  | move | bitOr | bitAnd | bitXor | add | sub | shiftRight | subReverse | shiftLeft =>
    simp [encode, decodeWord, decodeGroup8]
  | skipIfKeyPressed | skipIfKeyNotPressed => simp [encode, decodeWord, decodeGroupE]
  | getDelay | waitKey | setDelay | setSound | addToIndex | fontCharAddress | storeBcd | dumpRegisters
  | loadRegisters => simp [encode, decodeWord, decodeGroupF]
  | _ => simp [encode, decodeWord]

theorem decodeBytes_encodeBytes {i : Instr} (h : i.wellFormed = true) (rest : List Byte) :
    decodeBytes (encodeBytes i ++ rest) = .instr i rest := by
  simp [encodeBytes, decodeBytes, decodeWord_encode h]

/-- The opcode table's numbering of a word's bits is the word's own. -/
theorem decodeTableWord_toNat (w : Word) : decodeTableWord 16 w.toNat = decodeWord w := by
  have hw : BitVec.ofNat 16 (w.toNat % 2 ^ 16) = w := BitVec.eq_of_toNat_eq (by simp [w.isLt])
  rw [decodeTableWord, hw, decodeBytes, wordOfBytes_bytes]
  cases decodeWord w <;> rfl

/-- Settles O2: the word's round trip gives the bytes' and the table word's. -/
theorem decodeOfEncodeIsIdentity : Obligations.DecodeOfEncodeIsIdentity := fun i h =>
  ⟨decodeWord_encode h, decodeBytes_encodeBytes h, (decodeTableWord_toNat (encode i)).trans (decodeWord_encode h)⟩

/-! ### The fields as numbers -/

theorem opField_lt (w : Word) : opField w < 16 := BitVec.isLt _

theorem nField_lt (w : Word) : nField w < 16 := BitVec.isLt _

theorem opField_eq_div (w : Word) : opField w = w.toNat / 4096 := by
  have := w.isLt
  rw [opField, BitVec.extractLsb'_toNat, Nat.shiftRight_eq_div_pow]
  omega

theorem nField_eq_mod (w : Word) : nField w = w.toNat % 16 := by
  rw [nField, BitVec.extractLsb'_toNat, Nat.shiftRight_zero]

theorem nnField_eq_iff {w : Word} {nn : Byte} : nnField w = nn ↔ w.toNat % 256 = nn.toNat := by
  rw [← BitVec.toNat_inj, nnField, BitVec.extractLsb'_toNat, Nat.shiftRight_zero]

theorem nnnField_eq_iff {w : Word} {nnn : Addr} : nnnField w = nnn ↔ w.toNat % 4096 = nnn.toNat := by
  rw [← BitVec.toNat_inj, nnnField, BitVec.extractLsb'_toNat, Nat.shiftRight_zero]

/-! ### A word is the layout of its fields and of no others -/

theorem wordA_eq_iff {op : BitVec 4} {nnn : Addr} {w : Word} :
    wordA op nnn = w ↔ opField w = op.toNat ∧ nnnField w = nnn := by
  constructor
  · rintro rfl
    simp
  · rintro ⟨hop, rfl⟩
    have hbits : w.extractLsb' 12 4 = op := BitVec.eq_of_toNat_eq hop
    rw [← hbits, ← word_eq_wordA]

theorem wordXI_eq_iff {op : BitVec 4} {x : RegIdx} {nn : Byte} {w : Word} :
    wordXI op x nn = w ↔ opField w = op.toNat ∧ xField w = x ∧ nnField w = nn := by
  constructor
  · rintro rfl
    simp
  · rintro ⟨hop, rfl, rfl⟩
    have hbits : w.extractLsb' 12 4 = op := BitVec.eq_of_toNat_eq hop
    rw [← hbits, ← word_eq_wordXI]

theorem wordXY_eq_iff {op n : BitVec 4} {x y : RegIdx} {w : Word} :
    wordXY op x y n = w ↔ opField w = op.toNat ∧ xField w = x ∧ yField w = y ∧ nField w = n.toNat := by
  constructor
  · rintro rfl
    simp
  · rintro ⟨hop, rfl, rfl, hn⟩
    have hbits : w.extractLsb' 12 4 = op := BitVec.eq_of_toNat_eq hop
    have hlow : w.extractLsb' 0 4 = n := BitVec.eq_of_toNat_eq hn
    rw [← hbits, ← hlow, ← word_eq_wordXY]

/-! ### What the masks of the opcode map keep of a word -/

theorem and_F000_eq_wordA (w : Word) : w &&& 0xF000#16 = wordA (w.extractLsb' 12 4) 0 := by
  conv_lhs => rw [word_eq_wordA w, wordA_mask]

theorem and_F00F_eq_wordXY (w : Word) :
    w &&& 0xF00F#16 = wordXY (w.extractLsb' 12 4) 0 0 (w.extractLsb' 0 4) := by
  conv_lhs => rw [word_eq_wordXY w, wordXY_mask]

theorem and_F0FF_eq_wordXI (w : Word) : w &&& 0xF0FF#16 = wordXI (w.extractLsb' 12 4) 0 (nnField w) := by
  conv_lhs => rw [word_eq_wordXI w, wordX_mask]

/-- Clearing the `y` field, which the shifts ignore (R72). -/
theorem wordXY_mask_y (op : BitVec 4) (x y : RegIdx) (n : BitVec 4) :
    wordXY op x y n &&& 0xFF0F#16 = wordXY op x 0 n := by
  apply BitVec.eq_of_getLsbD_eq
  intro k hk
  rw [BitVec.getLsbD_and, wordXY_bit, wordXY_bit]
  interval_cases k <;> simp [regBits]

theorem and_FF0F_eq_wordXY (w : Word) :
    w &&& 0xFF0F#16 = wordXY (w.extractLsb' 12 4) (xField w) 0 (w.extractLsb' 0 4) := by
  conv_lhs => rw [word_eq_wordXY w, wordXY_mask_y]

theorem fields_and_FF0F (w : Word) :
    opField (w &&& 0xFF0F#16) = opField w ∧ xField (w &&& 0xFF0F#16) = xField w ∧ yField (w &&& 0xFF0F#16) = 0 ∧
      nField (w &&& 0xFF0F#16) = nField w :=
  wordXY_eq_iff.1 (and_FF0F_eq_wordXY w).symm

theorem and_F000_eq_iff {w p : Word} (hp : p &&& 0xF000#16 = p) :
    w &&& 0xF000#16 = p ↔ opField w = p.toNat / 4096 := by
  rw [← opField_eq_div, ← hp, and_F000_eq_wordA p, and_F000_eq_wordA w, wordA_eq_iff]
  simp [opField, eq_comm]

theorem and_F00F_eq_iff {w p : Word} (hp : p &&& 0xF00F#16 = p) :
    w &&& 0xF00F#16 = p ↔ opField w = p.toNat / 4096 ∧ nField w = p.toNat % 16 := by
  rw [← opField_eq_div, ← nField_eq_mod, ← hp, and_F00F_eq_wordXY p, and_F00F_eq_wordXY w, wordXY_eq_iff]
  simp [opField, nField, eq_comm]

theorem and_F0FF_eq_iff {w p : Word} (hp : p &&& 0xF0FF#16 = p) :
    w &&& 0xF0FF#16 = p ↔ opField w = p.toNat / 4096 ∧ nnField w = p.setWidth 8 := by
  have hnn : p.setWidth 8 = nnField p := BitVec.setWidth_eq_extractLsb' (by decide)
  rw [← opField_eq_div, hnn, ← hp, and_F0FF_eq_wordXI p, and_F0FF_eq_wordXI w, wordXI_eq_iff]
  simp [opField, eq_comm]

theorem and_FFFF_eq_iff {w p : Word} :
    w &&& 0xFFFF#16 = p ↔ opField w = p.toNat / 4096 ∧ nnnField w = p.setWidth 12 := by
  have hnnn : p.setWidth 12 = nnnField p := BitVec.setWidth_eq_extractLsb' (by decide)
  have hw : w &&& 0xFFFF#16 = w := BitVec.and_allOnes
  rw [hw, ← opField_eq_div, hnnn, eq_comm (a := w), word_eq_wordA p, wordA_eq_iff]
  simp

/-! ### The groups, selector by selector (R74) -/

theorem decodeGroup0_eq_some {w : Word} {i : Instr} :
    decodeGroup0 w = some i ↔ (nnnField w = 0x0E0 ∧ .clearScreen = i) ∨ (nnnField w = 0x0EE ∧ .ret = i) := by
  unfold decodeGroup0
  split_ifs <;> simp_all

theorem decodeGroup8_eq_some {w : Word} {i : Instr} : decodeGroup8 w = some i ↔
    (nField w = 0x0 ∧ .move (xField w) (yField w) = i) ∨ (nField w = 0x1 ∧ .bitOr (xField w) (yField w) = i) ∨
    (nField w = 0x2 ∧ .bitAnd (xField w) (yField w) = i) ∨ (nField w = 0x3 ∧ .bitXor (xField w) (yField w) = i) ∨
    (nField w = 0x4 ∧ .add (xField w) (yField w) = i) ∨ (nField w = 0x5 ∧ .sub (xField w) (yField w) = i) ∨
    (nField w = 0x6 ∧ .shiftRight (xField w) = i) ∨ (nField w = 0x7 ∧ .subReverse (xField w) (yField w) = i) ∨
    (nField w = 0xE ∧ .shiftLeft (xField w) = i) := by
  unfold decodeGroup8
  split <;> simp_all

theorem decodeGroupE_eq_some {w : Word} {i : Instr} : decodeGroupE w = some i ↔
    (nnField w = 0x9E ∧ .skipIfKeyPressed (xField w) = i) ∨
    (nnField w = 0xA1 ∧ .skipIfKeyNotPressed (xField w) = i) := by
  unfold decodeGroupE
  split_ifs <;> simp_all

theorem decodeGroupF_eq_some {w : Word} {i : Instr} : decodeGroupF w = some i ↔
    (nnField w = 0x07 ∧ .getDelay (xField w) = i) ∨ (nnField w = 0x0A ∧ .waitKey (xField w) = i) ∨
    (nnField w = 0x15 ∧ .setDelay (xField w) = i) ∨ (nnField w = 0x18 ∧ .setSound (xField w) = i) ∨
    (nnField w = 0x1E ∧ .addToIndex (xField w) = i) ∨ (nnField w = 0x29 ∧ .fontCharAddress (xField w) = i) ∨
    (nnField w = 0x33 ∧ .storeBcd (xField w) = i) ∨ (nnField w = 0x55 ∧ .dumpRegisters (xField w) = i) ∨
    (nnField w = 0x65 ∧ .loadRegisters (xField w) = i) := by
  unfold decodeGroupF
  split_ifs <;> simp_all

/-! ### The dispatch is the opcode map (R75) -/

/-- Both sides, group by group of the primary nibble: what the dispatch selects on is what the rows of that nibble
ask for. -/
theorem decodeWord_eq_some_iff (w : Word) (i : Instr) :
    decodeWord w = some i ↔ ∃ r ∈ opcodeRows, r.hits w = true ∧ r.build w = i := by
  have hlt := opField_lt w
  simp (disch := decide) only [opcodeRows, BitVec.ofNat_eq_ofNat, List.cons_append, List.nil_append,
    List.exists_mem_cons_iff, OpcodeRow.hits, beq_iff_eq, and_F000_eq_iff, and_F00F_eq_iff, and_F0FF_eq_iff,
    and_FFFF_eq_iff]
  interval_cases hop : opField w <;>
    simp [decodeWord, hop, decodeGroup0_eq_some, decodeGroup8_eq_some, decodeGroupE_eq_some, decodeGroupF_eq_some]

/-- A word that hits two rows shows both patterns on the bits that both masks keep. -/
theorem OpcodeRow.not_hits_both {r q : OpcodeRow} (h : r.pattern &&& q.mask ≠ q.pattern &&& r.mask) (w : Word) :
    ¬ (r.hits w = true ∧ q.hits w = true) := by
  rintro ⟨hr, hq⟩
  apply h
  rw [← eq_of_beq hr, ← eq_of_beq hq, BitVec.and_assoc, BitVec.and_assoc, BitVec.and_comm r.mask]

theorem opcodeRows_patterns_differ :
    opcodeRows.Pairwise fun r q => r.pattern &&& q.mask ≠ q.pattern &&& r.mask := by
  decide

/-- Settles O5: the rows are disjoint because any two patterns differ on a bit that both masks keep. -/
theorem decodeIsTheOpcodeMap : Obligations.DecodeIsTheOpcodeMap :=
  ⟨decodeWord_eq_some_iff, opcodeRows_patterns_differ.imp OpcodeRow.not_hits_both⟩

/-! ### Encoding what was decoded -/

/-- Settles O3: row by row, the fields that a hit fixes and the fields that the row builds from make the whole word,
but for `y` in the two shifts. -/
theorem encodeOfDecodeKeepsTheWord : Obligations.EncodeOfDecodeKeepsTheWord := by
  intro w i h
  rw [decodeWord_eq_some_iff] at h
  obtain ⟨r, hr, hhit, rfl⟩ := h
  have hn : nField w % 16 = nField w := Nat.mod_eq_of_lt (nField_lt w)
  have hheight : nField w ≤ 15 := Nat.le_of_lt_succ (nField_lt w)
  revert r
  simp (disch := decide) only [opcodeRows, BitVec.ofNat_eq_ofNat, List.cons_append, List.nil_append,
    List.forall_mem_cons, OpcodeRow.hits, beq_iff_eq, and_F000_eq_iff, and_F00F_eq_iff, and_F0FF_eq_iff,
    and_FFFF_eq_iff]
  and_intros <;> simp +contextual [encode, Instr.wellFormed, wordA_eq_iff, wordXI_eq_iff, wordXY_eq_iff,
    fields_and_FF0F w, hn, hheight]

/-! ### The unknown words (R77) -/

theorem decodeGroup0_eq_none {w : Word} : decodeGroup0 w = none ↔ w.toNat % 4096 ∉ [0x0E0, 0x0EE] := by
  simp [Option.eq_none_iff_forall_ne_some, decodeGroup0_eq_some, nnnField_eq_iff, forall_and]

theorem decodeGroup8_eq_none {w : Word} :
    decodeGroup8 w = none ↔ w.toNat % 16 ∈ [0x8, 0x9, 0xA, 0xB, 0xC, 0xD, 0xF] := by
  rw [← nField_eq_mod]
  have hlt := nField_lt w
  interval_cases hn : nField w <;> simp [decodeGroup8, hn]

theorem decodeGroupE_eq_none {w : Word} : decodeGroupE w = none ↔ w.toNat % 256 ∉ [0x9E, 0xA1] := by
  simp [Option.eq_none_iff_forall_ne_some, decodeGroupE_eq_some, nnField_eq_iff, forall_and]

theorem decodeGroupF_eq_none {w : Word} :
    decodeGroupF w = none ↔ w.toNat % 256 ∉ [0x07, 0x0A, 0x15, 0x18, 0x1E, 0x29, 0x33, 0x55, 0x65] := by
  simp [Option.eq_none_iff_forall_ne_some, decodeGroupF_eq_some, nnField_eq_iff, forall_and]

/-- Settles O4: each primary nibble leaves at most one row of the table, and that row is its group's. -/
theorem unknownWordsAreExactlyTheTable : Obligations.UnknownWordsAreExactlyTheTable := by
  intro w
  rw [← opField_eq_div]
  have hlt := opField_lt w
  interval_cases hop : opField w <;>
    simp [decodeWord, hop, decodeGroup0_eq_none, decodeGroup8_eq_none, decodeGroupE_eq_none, decodeGroupF_eq_none,
      nField_eq_mod]

/-! ### Sample words -/

/-- Settles O1: sixteen words, each decoded by evaluation. -/
theorem sampleWordsDecode : Obligations.SampleWordsDecode := by
  unfold Obligations.SampleWordsDecode
  decide

end Sys2Proof

namespace Sys2Proof.Machine

/-! ### Every step answers -/

/-- Return and call raise or go on, as `SP` says; every other meaning is a next state as it is written. -/
theorem exec_answers_next (i : Instr) (s : State) : ∃ t, exec i s = .next t := by
  cases i with
  | ret =>
    rcases Nat.eq_zero_or_pos s.sp.val with hempty | hpos
    · exact ⟨_, exec_ret_of_empty hempty⟩
    · exact ⟨_, exec_ret_of_pos hpos⟩
  | call nnn =>
    rcases s.sp_full_or_lt with hfull | hlt
    · exact ⟨_, exec_call_of_full nnn hfull⟩
    · exact ⟨_, exec_call_of_lt nnn hlt⟩
  | _ => exact ⟨_, rfl⟩

theorem stepEvent_answers_next (rnd : Byte) (s : State) : ∃ t, stepEvent rnd s = .next t := by
  cases hgate : s.halted || s.blocked with
  | true => exact ⟨_, stepEvent_of_gate rnd hgate⟩
  | false =>
    cases hfetch : s.fetch with
    | none => exact ⟨_, stepEvent_of_fetch_none rnd hgate hfetch⟩
    | some w =>
      cases hdecode : decodeWord w with
      | none => exact ⟨_, stepEvent_of_unknown rnd hgate hfetch hdecode⟩
      | some i =>
        rw [stepEvent_of_instr rnd hgate hfetch hdecode]
        exact exec_answers_next i _

theorem applyEvent_answers_next (e : Event) (s : State) : ∃ t, applyEvent e s = .next t := by
  cases e with
  | step rnd => exact stepEvent_answers_next rnd s
  | _ => exact ⟨_, rfl⟩

/-- Settles O12: each of the six events answers, the STEP by its phases. -/
theorem everyStepAnswersNext : Obligations.EveryStepAnswersNext := fun s =>
  applyEvent_answers_next s.nextEvent s.takeEvent

end Sys2Proof.Machine
end

section
/-! Proofs for the family 40_host_operations.md: what each host event leaves of the state (R91 to R95), the order in
which a step takes the events (R90), and the strobes of one clock cycle (R96, R97). -/

namespace Sys2Proof.Machine

/-! ### The next event -/

theorem step_of_no_pending {s : State} (h : s.pending = []) :
    step s = applyEvent (.step (Config.freeRnd s.draws)) { s with draws := s.draws + 1 } := by
  obtain ⟨hnext, htake⟩ := State.nextEvent_nil h
  rw [step, hnext, htake]

/-- Settles O6: with and without a pending event. -/
theorem stepAppliesTheNextEvent : Obligations.StepAppliesTheNextEvent :=
  ⟨fun _ _ _ => step_of_pending, fun _ => step_of_no_pending⟩

/-! ### KEY -/

/-- Settles O43: a key event while waiting is a key-down of a blocked core, and any other writes only its flag. -/
theorem keyEventUpdatesAndUnblocks : Obligations.KeyEventUpdatesAndUnblocks := by
  intro code pressed s
  refine congrArg Host.Outcome.next ?_
  by_cases hwait : pressed = true ∧ s.blocked = true
  · obtain ⟨rfl, hblocked⟩ := hwait
    rw [if_pos ⟨rfl, hblocked⟩, State.onKey_of_waiting hblocked]
  · rw [if_neg hwait, State.onKey_of_not_waiting (by simpa using hwait)]

/-! ### RESET -/

theorem Memory.readByte_nil (font : Vector Byte 80) (a : Nat) :
    Memory.readByte font [] a = if h : a < 80 then some font[a] else if a ≤ 0xFFF then some 0x00 else none := by
  unfold Memory.readByte
  by_cases hfont : a < 80
  · rw [dif_pos hfont, if_pos (by omega), Memory.read_nil font hfont]
  · simp [hfont, Memory.read, Memory.lookup, Memory.blank]

theorem Display.pixel_blank (py : Fin 32) (px : Fin 64) : Display.pixel (Vector.replicate 32 0) py px = false := by
  simp [Display.pixel]

/-- Settles O45: the reset state names every field; its memory lists nothing and its three arrays are constant. -/
theorem resetEventSetsEveryField : Obligations.ResetEventSetsEveryField := by
  intro s
  refine ⟨s.onReset, rfl, Memory.readByte_nil s.font, ?registers, rfl, rfl, ?stack, rfl, rfl, rfl, ?keys,
    Display.pixel_blank, ?scalars⟩
  case registers => exact fun r => Vector.getElem_replicate r.isLt
  case stack => exact fun k => Vector.getElem_replicate k.isLt
  case keys => exact fun k => Vector.getElem_replicate k.isLt
  case scalars => and_intros <;> rfl

/-! ### LOAD -/

theorem State.onLoad_of_fits {bytes : List Byte} (s : State) (h : bytes.length ≤ 3584) :
    s.onLoad bytes = { s with mem := Memory.copyIn s.font s.mem 0x200 bytes, output := .load .ok } :=
  if_neg (Nat.not_lt.mpr h)

theorem State.onLoad_of_too_large {bytes : List Byte} (s : State) (h : bytes.length > 3584) :
    s.onLoad bytes = { s with output := .load .romTooLarge } :=
  if_pos h

/-- Settles O47: an image that fits ends below 0x1000, so each of its bytes is at an address of the memory. -/
theorem loadCopiesOrRejects : Obligations.LoadCopiesOrRejects := by
  intro bytes s
  refine ⟨fun hfits => ?_, fun hlarge => congrArg Host.Outcome.next (s.onLoad_of_too_large hlarge)⟩
  refine ⟨_, congrArg Host.Outcome.next (s.onLoad_of_fits hfits), rfl, fun k hk => ?inside, fun a ha => ?outside⟩
  case inside =>
    rw [State.memRead_of_le _ (by omega)]
    exact congrArg some (Memory.read_copyIn_inside s.font s.mem 0x200 hk)
  case outside =>
    simp only [State.memRead, Memory.readByte, Memory.read_copyIn_outside s.font s.mem ha]

/-! ### TAKE_DISPLAY -/

theorem State.onTakeDisplay_of_dirty {s : State} (h : s.dirty = true) :
    s.onTakeDisplay = { s with dirty := false, output := .display (some s.disp) } :=
  if_pos h

theorem State.onTakeDisplay_of_clean {s : State} (h : s.dirty = false) :
    s.onTakeDisplay = { s with output := .display none } :=
  if_neg (ne_true_of_eq_false h)

theorem Display.snapshotBit_eq_pixel (d : Display) (y : Fin 32) (x : Fin 64) :
    d.snapshotBit ⟨y.val * 64 + x.val, by omega⟩ = d.pixel y x := by
  unfold Display.snapshotBit
  congr 1
  · exact Fin.ext (by simp only; omega)
  · exact Fin.ext (by simp only; omega)

/-- Settles O48: `DIRTY` set and clear, and row and column are quotient and remainder by 64. -/
theorem takeDisplayIfDirty : Obligations.TakeDisplayIfDirty :=
  ⟨fun _ => ⟨fun hdirty => congrArg Host.Outcome.next (State.onTakeDisplay_of_dirty hdirty),
      fun hclean => congrArg Host.Outcome.next (State.onTakeDisplay_of_clean hclean)⟩,
    Display.snapshotBit_eq_pixel⟩

/-! ### A STEP leaves a report (R171) -/

theorem exec_reports {i : Instr} {s t : State} {r : Report} (h : exec i s = .next t) (hs : s.output = .report r) :
    ∃ r', t.output = .report r' := by
  rcases exec_raises_or_footprint h with ⟨f, rfl⟩ | hw
  · exact ⟨.raised f, rfl⟩
  · obtain ⟨_, _, houtput⟩ := hw.status
    exact ⟨r, houtput.trans hs⟩

theorem stepEvent_reports {rnd : Byte} {s t : State} (h : stepEvent rnd s = .next t) :
    ∃ r, t.output = .report r := by
  rcases stepEvent_cases h with ⟨_, rfl⟩ | ⟨_, _, rfl⟩ | ⟨_, w, _, _, rfl⟩ | ⟨_, w, i, _, _, hexec⟩
  · exact ⟨.idle, rfl⟩
  · exact ⟨.raised .memFault, rfl⟩
  · exact ⟨.unknownOpcode, rfl⟩
  · exact exec_reports hexec rfl

/-! ### The strobes of a cycle, one by one -/

/-- The LOAD strobe, if high. -/
def State.strobeLoad (load : Option (Addr × Byte)) (s : State) : State :=
  match load with
  | none => s
  | some (a, b) => s.onLoadByte a b

/-- The KEY strobe, if high. -/
def State.strobeKey (key : Option (KeyCode × Bool)) (s : State) : State :=
  match key with
  | none => s
  | some (c, p) => s.onKey c p

/-- The TICK strobe, if high. -/
def State.strobeTick (tick : Bool) (s : State) : State := if tick then s.onTick else s

/-- The strobes before STEP act one after another. -/
theorem State.strobeInputs_eq (σ : Strobes) (s : State) :
    s.strobeInputs σ = ((s.strobeLoad σ.load).strobeKey σ.key).strobeTick σ.tick := by
  obtain ⟨_, load, key, _, _, _⟩ := σ
  cases load <;> cases key <;> rfl

theorem State.onLoadByte_memRead_same (a : Addr) (b : Byte) (s : State) :
    (s.onLoadByte a b).memRead a.toNat = some b := by
  rw [State.memRead_of_le _ (by omega)]
  exact congrArg some ((Memory.read_write s.font s.mem a.toNat a.toNat b).trans (if_pos rfl))

theorem State.onLoadByte_memRead_other {a : Addr} {k : Nat} (b : Byte) (s : State) (h : k ≠ a.toNat) :
    (s.onLoadByte a b).memRead k = s.memRead k := by
  simp only [State.memRead, State.onLoadByte, Memory.readByte, Memory.read_write, if_neg h]

theorem State.soundOn_iff (s : State) : s.soundOn = true ↔ s.st ≠ 0 := bne_iff_ne

/-- A cycle without `rst` (R96, R97): the pins show the state `d` after the STEP, if there is one, and the read-out acts
on that state. -/
theorem cycle_of_not_rst {σ : Strobes} (s : State) (h : σ.rst = false) :
    ∃ d report, cycle σ s = .next (d.strobeTake σ.take, d.pins report) ∧
      match σ.step with
      | none => d = s.strobeInputs σ ∧ report = 0
      | some rnd => applyEvent (.step rnd) (s.strobeInputs σ) = .next d ∧
          ∃ r, d.output = .report r ∧ report = r.code := by
  cases hstep : σ.step with
  | none => exact ⟨_, _, cycle_of_no_step s h hstep, rfl, rfl⟩
  | some rnd =>
    obtain ⟨d, hd⟩ := stepEvent_answers_next rnd (s.strobeInputs σ)
    obtain ⟨r, hr⟩ := stepEvent_reports hd
    exact ⟨d, _, cycle_of_step h hstep hd, hd, r, hr, by rw [hr, Output.reportCode]⟩

/-- Settles O49: the states between the strobes are the intermediate states of the cycle, strobe by strobe. -/
theorem strobesActInFixedOrder : Obligations.StrobesActInFixedOrder := by
  refine ⟨fun σ s hrst => ?_, fun σ s hrst => ?_⟩
  · obtain ⟨d, report, hcycle, hstep⟩ := cycle_of_not_rst s hrst
    rw [State.strobeInputs_eq] at hstep
    refine ⟨s.strobeLoad σ.load, (s.strobeLoad σ.load).strobeKey σ.key,
      ((s.strobeLoad σ.load).strobeKey σ.key).strobeTick σ.tick, d, d.strobeTake σ.take, d.pins report, hcycle,
      ?load, ?key, ?tick, hstep, ?take, rfl, rfl, rfl, rfl, rfl, d.soundOn_iff⟩
    case load =>
      rcases σ.load with _ | ⟨ad, data⟩
      · rfl
      · exact ⟨rfl, s.onLoadByte_memRead_same ad data, fun _ => s.onLoadByte_memRead_other data⟩
    case key => rcases σ.key with _ | ⟨code, pressed⟩ <;> rfl
    case tick => cases σ.tick <;> rfl
    case take => cases σ.take <;> rfl
  · exact ⟨_, _, cycle_of_rst s hrst, rfl, rfl, rfl, rfl, rfl, rfl, rfl, s.onReset.soundOn_iff⟩

end Sys2Proof.Machine
end

section
/-! Proofs for the family 41_step_cycle.md: the phases of a STEP (R101 to R104), where an instruction leaves `PC`
(R105), and which fault it raises (R106). -/

namespace Sys2Proof.Machine

/-! ### The phases of a STEP -/

theorem State.gate_open {s : State} (hh : s.halted = false) (hb : s.blocked = false) :
    (s.halted || s.blocked) = false :=
  Bool.or_eq_false_iff.mpr ⟨hh, hb⟩

/-- Settles O8: the gate comes first. -/
theorem stepIsIdleWhenHaltedOrBlocked : Obligations.StepIsIdleWhenHaltedOrBlocked := fun _ rnd h =>
  ⟨stepEvent_of_gate rnd (Bool.or_eq_true_iff.mpr h), rfl⟩

theorem State.fetch_eq_none {s : State} (h : s.pc.toNat ≥ 0xFFF) : s.fetch = none := by
  rw [State.fetch_eq, if_neg (by omega)]

/-- Settles O9: below 0xFFF both bytes are read, and from there on the second is out of range. -/
theorem fetchReadsBigEndianOrFaults : Obligations.FetchReadsBigEndianOrFaults := fun _ rnd =>
  ⟨fun _ _ _ hhi hlo => State.fetch_of_memRead hhi hlo,
    fun hh hb hpc => stepEvent_of_fetch_none rnd (State.gate_open hh hb) (State.fetch_eq_none hpc)⟩

/-- Settles O10: the gate is open, the fetch succeeds, and the dispatch finds no row. -/
theorem unknownOpcodeIsReportedNoOp : Obligations.UnknownOpcodeIsReportedNoOp := fun _ rnd _ hh hb hfetch hdecode =>
  ⟨stepEvent_of_unknown rnd (State.gate_open hh hb) hfetch hdecode, rfl⟩

/-- A STEP through all its phases, from the two bytes at `PC` (R102 to R105). -/
theorem stepEvent_of_memRead {s : State} {hi lo : Byte} {i : Instr} (rnd : Byte) (hh : s.halted = false)
    (hb : s.blocked = false) (hhi : s.memRead s.pc.toNat = some hi) (hlo : s.memRead (s.pc.toNat + 1) = some lo)
    (hdecode : decodeWord (hi ++ lo) = some i) : stepEvent rnd s = exec i (s.beginStep rnd) := by
  have hfetch : s.fetch = some (wordOfBytes hi lo) := by rw [State.fetch, hhi, hlo]
  exact stepEvent_of_instr rnd (State.gate_open hh hb) hfetch hdecode

/-- Settles O7: taking the event off the list changes nothing that the phases read. -/
theorem stepRunsTheDecodedInstruction : Obligations.StepRunsTheDecodedInstruction :=
  fun _ _ _ _ hh hb hhi hlo hdecode =>
    ⟨fun hnone => (step_of_no_pending hnone).trans (stepEvent_of_memRead _ hh hb hhi hlo hdecode),
      fun _ _ hpending => (step_of_pending hpending).trans (stepEvent_of_memRead _ hh hb hhi hlo hdecode)⟩

/-! ### Where an instruction leaves `PC` -/

/-- A skip on a condition that computes the proposition `p`. -/
theorem State.skipIf_pc_of_iff {c : Bool} {p : Prop} [Decidable p] (s : State) (h : c = true ↔ p) :
    (s.skipIf c).pc = if p then s.pc + 4 else s.pc + 2 :=
  if_congr h rfl rfl

/-- The key index is the low nibble as a remainder (46_keypad_timers.md R167). -/
theorem keyIndex_val (b : Byte) : (keyIndex b).val = b.toNat % 16 := by
  simp [keyIndex]

theorem offsetTarget_toNat (nnn : Addr) (v0 : Byte) : (offsetTarget nnn v0).toNat = nnn.toNat + v0.toNat := by
  have := nnn.isLt
  have := v0.isLt
  exact Nat.mod_eq_of_lt (by omega)

theorem State.storing_pc {a : Nat} {bytes : List Byte} {k : State → State} {s : State}
    (hk : ∀ t, (k t).pc = t.pc + 2) (hrun : (s.storing a bytes k).halted = false) :
    (s.storing a bytes k).pc = s.pc + 2 := by
  rw [State.storing_eq] at hrun ⊢
  split at hrun
  · next hfits => rw [if_pos hfits, hk]
  · exact absurd hrun (by simp)

theorem State.loading_pc {a n : Nat} {k : List Byte → State → State} {s : State}
    (hk : ∀ bytes t, (k bytes t).pc = t.pc + 2) (hrun : (s.loading a n k).halted = false) :
    (s.loading a n k).pc = s.pc + 2 := by
  rw [State.loading_eq] at hrun ⊢
  split at hrun
  · next hfits => rw [if_pos hfits, hk]
  · exact absurd hrun (by simp)

theorem exec_ret_pc {s t : State} (h : exec .ret s = .next t) (hrun : t.halted = false) :
    ∃ hpos : 0 < s.sp.val, t.pc = s.stack[s.sp.val - 1] := by
  rcases Nat.eq_zero_or_pos s.sp.val with hempty | hpos
  · rw [exec_ret_of_empty hempty] at h
    cases h
    exact absurd hrun (by simp)
  · rw [exec_ret_of_pos hpos] at h
    cases h
    exact ⟨hpos, rfl⟩

theorem exec_call_pc {nnn : Addr} {s t : State} (h : exec (.call nnn) s = .next t) (hrun : t.halted = false) :
    t.pc = nnn.setWidth 16 := by
  rcases s.sp_full_or_lt with hfull | hlt
  · rw [exec_call_of_full nnn hfull] at h
    cases h
    exact absurd hrun (by simp)
  · rw [exec_call_of_lt nnn hlt] at h
    cases h
    rfl

/-- Settles O11: the transfers and skips one by one; the others advance, the memory instructions unless they raise. -/
theorem pcAfterEachInstruction : Obligations.PcAfterEachInstruction := by
  intro i s t h _ hrun
  cases i with
  | ret => exact exec_ret_pc h hrun
  | jump nnn => cases h; exact BitVec.toNat_setWidth_of_le (by decide)
  | call nnn => exact (congrArg BitVec.toNat (exec_call_pc h hrun)).trans (BitVec.toNat_setWidth_of_le (by decide))
  | jumpWithOffset nnn => cases h; exact offsetTarget_toNat nnn s.v[0]
  | skipIfEqualImmediate x nn => cases h; exact s.skipIf_pc_of_iff beq_iff_eq
  | skipIfNotEqualImmediate x nn => cases h; exact s.skipIf_pc_of_iff bne_iff_ne
  | skipIfRegistersEqual x y => cases h; exact s.skipIf_pc_of_iff beq_iff_eq
  | skipIfRegistersNotEqual x y => cases h; exact s.skipIf_pc_of_iff bne_iff_ne
  | skipIfKeyPressed x => cases h; exact s.skipIf_pc_of_iff (by simp [keyIndex_val])
  | skipIfKeyNotPressed x => cases h; exact s.skipIf_pc_of_iff (by simp [keyIndex_val])
  | drawSprite _ _ _ | loadRegisters _ => cases h; exact State.loading_pc (fun _ _ => rfl) hrun
  | storeBcd _ | dumpRegisters _ => cases h; exact State.storing_pc (fun _ => rfl) hrun
  | _ => cases h; rfl

/-! ### Which fault an instruction raises -/

theorem bcdDigits_length (b : Byte) : (bcdDigits b).length = 3 := rfl

/-- The fault an instruction raises in a state, if any: the conditions of R110, R113, R143 to R145 and R152. -/
def faultOf (s : State) : Instr → Option Fault
  | .call _ => if s.sp.val = 16 then some .stackOverflow else none
  | .ret => if s.sp.val = 0 then some .stackUnderflow else none
  | .storeBcd _ => if s.i.toNat + 2 > 0xFFF then some .memFault else none
  | .dumpRegisters x | .loadRegisters x => if s.i.toNat + x.val > 0xFFF then some .memFault else none
  | .drawSprite _ _ n => if n ≥ 1 ∧ s.i.toNat + n - 1 > 0xFFF then some .memFault else none
  | _ => none

/-- `faultOf` is what `exec` does: an instruction raises that fault, and stays within its footprint if there is none. -/
theorem exec_raises_faultOf {i : Instr} {s t : State} (h : exec i s = .next t) :
    (∃ f, faultOf s i = some f ∧ t = s.raise f) ∨ (faultOf s i = none ∧ Footprint s t i) := by
  cases i with
  | ret =>
    rcases Nat.eq_zero_or_pos s.sp.val with hempty | hpos
    · rw [exec_ret_of_empty hempty] at h; cases h; exact .inl ⟨_, if_pos hempty, rfl⟩
    · rw [exec_ret_of_pos hpos] at h; cases h; exact .inr ⟨if_neg hpos.ne', rfl⟩
  | call nnn =>
    rcases s.sp_full_or_lt with hfull | hlt
    · rw [exec_call_of_full nnn hfull] at h; cases h; exact .inl ⟨_, if_pos hfull, rfl⟩
    · rw [exec_call_of_lt nnn hlt] at h; cases h; exact .inr ⟨if_neg hlt.ne, rfl⟩
  | drawSprite _ _ _ | loadRegisters _ =>
    cases h; rw [State.loading_eq]; split
    · exact .inr ⟨if_neg (by omega), rfl⟩
    · exact .inl ⟨_, if_pos (by omega), rfl⟩
  | storeBcd x =>
    cases h; rw [State.storing_eq, bcdDigits_length]; split
    · exact .inr ⟨if_neg (by omega), rfl⟩
    · exact .inl ⟨_, if_pos (by omega), rfl⟩
  | dumpRegisters x =>
    cases h; rw [State.storing_eq, State.regsThrough_length]; split
    · exact .inr ⟨if_neg (by omega), rfl⟩
    · exact .inl ⟨_, if_pos (by omega), rfl⟩
  | _ => cases h; exact .inr ⟨rfl, rfl⟩

theorem Fault.code_inj {f g : Fault} : f.code = g.code ↔ f = g := by
  cases f <;> cases g <;> decide

/-- From a running core, `HALTED` and `CAUSE` record which fault was raised. -/
theorem exec_records_iff {i : Instr} {s t : State} (f : Fault) (h : exec i s = .next t) (hrun : s.halted = false) :
    (t.halted = true ∧ t.cause = f.code) ↔ faultOf s i = some f := by
  rcases exec_raises_faultOf h with ⟨g, hg, rfl⟩ | ⟨hnone, hw⟩
  · rw [hg, State.raise_halted, State.raise_cause, Fault.code_inj, Option.some_inj, and_iff_right rfl]
  · simp [hnone, hw.status.1, hrun]

theorem exec_halts_with_code {i : Instr} {s t : State} (h : exec i s = .next t) (hrun : s.halted = false)
    (hhalt : t.halted = true) : ∃ f : Fault, t.cause = f.code := by
  rcases exec_raises_or_footprint h with ⟨f, rfl⟩ | hw
  · exact ⟨f, rfl⟩
  · exact absurd (hhalt.symm.trans (hw.status.1.trans hrun)) (by decide)

theorem faultOf_eq_stackOverflow {i : Instr} {s : State} :
    faultOf s i = some .stackOverflow ↔ (∃ nnn, i = .call nnn) ∧ s.sp.val = 16 := by
  cases i <;> simp [faultOf]

theorem faultOf_eq_stackUnderflow {i : Instr} {s : State} :
    faultOf s i = some .stackUnderflow ↔ i = .ret ∧ s.sp.val = 0 := by
  cases i <;> simp [faultOf]

theorem faultOf_eq_memFault {i : Instr} {s : State} :
    faultOf s i = some .memFault ↔
      (∃ x, i = .storeBcd x ∧ s.i.toNat + 2 > 0xFFF) ∨
      (∃ x, (i = .dumpRegisters x ∨ i = .loadRegisters x) ∧ s.i.toNat + x.val > 0xFFF) ∨
      (∃ x y n, i = .drawSprite x y n ∧ n ≥ 1 ∧ s.i.toNat + n - 1 > 0xFFF) := by
  cases i with
  | storeBcd _ | drawSprite _ _ _ => simp [faultOf]; omega
  | _ => simp [faultOf]

/-- Settles O14: the state after the instruction records its fault, and `faultOf` lists the conditions. -/
theorem faultsExactlyWhen : Obligations.FaultsExactlyWhen := by
  intro i s hrun
  obtain ⟨t, h⟩ := exec_answers_next i s
  refine ⟨t, h, (exec_records_iff .stackOverflow h hrun).trans faultOf_eq_stackOverflow,
    (exec_records_iff .stackUnderflow h hrun).trans faultOf_eq_stackUnderflow,
    (exec_records_iff .memFault h hrun).trans faultOf_eq_memFault, fun hhalt => ?_⟩
  obtain ⟨f, hf⟩ := exec_halts_with_code h hrun hhalt
  cases f with
  | stackOverflow => exact .inl hf
  | stackUnderflow => exact .inr (.inl hf)
  | memFault => exact .inr (.inr hf)

end Sys2Proof.Machine
end

section
/-! Proofs for the family 42_control_transfer.md: what the transfers and skips leave as whole next states, and a call
undone by its return. -/

namespace Sys2Proof.Machine

/-! ### return and call -/

/-- Settles O16: a stack with entries pops, an empty one raises. -/
theorem returnPopsIntoPc : Obligations.ReturnPopsIntoPc := fun _ =>
  ⟨fun hpos => exec_ret_of_pos hpos, fun hempty => exec_ret_of_empty hempty⟩

/-- Settles O18: a stack with room takes the return address, a full one raises. -/
theorem callPushesReturnAddress : Obligations.CallPushesReturnAddress := by
  intro nnn s
  refine ⟨fun hlt => ?_, fun hfull => exec_call_of_full nnn hfull⟩
  rw [exec_call_of_lt nnn hlt, BitVec.ofNat_toNat]

/-- The stack part of S9: whatever `PC` the callee has reached, a return takes back the entry its call pushed. -/
theorem exec_ret_after_push {s : State} (w p : Word) (hlt : s.sp.val < 16) :
    exec .ret { s with stack := s.stack.set s.sp.val w, sp := ⟨s.sp.val + 1, by omega⟩, pc := p } =
      .next { s with stack := s.stack.set s.sp.val w, pc := w } := by
  rw [exec_ret_of_pos (Nat.succ_pos _)]
  simp

/-- Settles O21: the return reads the entry that the call wrote at the old `SP`, above all the entries in use. -/
theorem callThenReturnComesBack : Obligations.CallThenReturnComesBack := fun nnn s p hlt =>
  ⟨_, _, exec_call_of_lt nnn hlt, exec_ret_after_push (s.pc + 2) p hlt, rfl, rfl, rfl,
    fun _ hk => Vector.getElem_set_ne hlt _ hk.ne'⟩

/-! ### Jumps -/

/-- Settles O17: the address is zero-extended, and the bound is that of a 12-bit and an 8-bit number. -/
theorem jumpsSetPc : Obligations.JumpsSetPc := by
  intro nnn s
  have hnnn : nnn.toNat < 4096 := nnn.isLt
  have hoffset : s.v[0].toNat < 256 := s.v[0].isLt
  refine ⟨?_, rfl, by omega⟩
  rw [BitVec.ofNat_toNat]
  rfl

/-! ### Skips -/

/-- A skip on a condition that computes the proposition `p` writes `PC` and nothing else. -/
theorem State.skipIf_of_iff {c : Bool} {p : Prop} [Decidable p] (s : State) (h : c = true ↔ p) :
    s.skipIf c = { s with pc := if p then s.pc + 4 else s.pc + 2 } :=
  congrArg (fun w => { s with pc := w }) (s.skipIf_pc_of_iff h)

/-- Settles O19: the byte comparisons compute `=` and `≠`. -/
theorem immediateSkips : Obligations.ImmediateSkips := fun _ _ s =>
  ⟨congrArg _ (s.skipIf_of_iff beq_iff_eq), congrArg _ (s.skipIf_of_iff bne_iff_ne)⟩

theorem exec_skipIfRegistersEqual (x y : RegIdx) (s : State) :
    exec (.skipIfRegistersEqual x y) s = .next { s with pc := if s.v[x] = s.v[y] then s.pc + 4 else s.pc + 2 } :=
  congrArg _ (s.skipIf_of_iff beq_iff_eq)

theorem exec_skipIfRegistersNotEqual (x y : RegIdx) (s : State) :
    exec (.skipIfRegistersNotEqual x y) s = .next { s with pc := if s.v[x] ≠ s.v[y] then s.pc + 4 else s.pc + 2 } :=
  congrArg _ (s.skipIf_of_iff bne_iff_ne)

/-- Settles O20: a register equals itself, so with `x = y` the first comparison holds and the second fails. -/
theorem registerSkips : Obligations.RegisterSkips := by
  intro x y s
  refine ⟨exec_skipIfRegistersEqual x y s, exec_skipIfRegistersNotEqual x y s, ?_, ?_⟩
  · rw [exec_skipIfRegistersEqual, if_pos rfl]
  · rw [exec_skipIfRegistersNotEqual, if_neg (not_not_intro rfl)]

end Sys2Proof.Machine
end

section
/-! Proofs for the family 43_alu.md: what the register and ALU instructions leave as whole next states, with every
result and flag in the numbers of the spec's rules. -/

namespace Sys2Proof.Machine

/-! ### Byte results as numbers -/

theorem byte_add_eq (a b : Byte) : a + b = BitVec.ofNat 8 ((a.toNat + b.toNat) % 256) := by
  apply BitVec.eq_of_toNat_eq
  rw [BitVec.toNat_add, BitVec.toNat_ofNat, Nat.mod_mod]

theorem byte_sub_eq (a b : Byte) : a - b = BitVec.ofInt 8 (((a.toNat : Int) - (b.toNat : Int)) % 256) := by
  have := a.isLt
  have := b.isLt
  apply BitVec.eq_of_toNat_eq
  rw [BitVec.toNat_sub, BitVec.toNat_ofInt]
  omega

theorem byte_shiftRight_one_eq (b : Byte) : b >>> 1 = BitVec.ofNat 8 (b.toNat / 2) := by
  apply BitVec.eq_of_toNat_eq
  rw [BitVec.toNat_ushiftRight, BitVec.toNat_ofNat, Nat.shiftRight_eq_div_pow]
  omega

theorem byte_shiftLeft_one_eq (b : Byte) : b <<< 1 = BitVec.ofNat 8 (b.toNat * 2 % 256) := by
  apply BitVec.eq_of_toNat_eq
  rw [BitVec.toNat_shiftLeft, BitVec.toNat_ofNat, Nat.shiftLeft_eq, Nat.mod_mod]

/-! ### Flags as numbers -/

theorem flagByte_decide (p : Prop) [Decidable p] : flagByte (decide p) = if p then 1 else 0 :=
  if_congr decide_eq_true_iff rfl rfl

theorem flagByte_eq_ofNat (c : Bool) : flagByte c = BitVec.ofNat 8 c.toNat := by
  cases c <;> rfl

theorem flagByte_shiftedOutRight (b : Byte) : flagByte (shiftedOutRight b) = BitVec.ofNat 8 (b.toNat % 2) := by
  rw [flagByte_eq_ofNat, shiftedOutRight, BitVec.getLsbD, Nat.toNat_testBit, pow_zero, Nat.div_one]

/-- Bit 7 is the whole quotient by 128, since a byte is below 256. -/
theorem flagByte_shiftedOutLeft (b : Byte) : flagByte (shiftedOutLeft b) = BitVec.ofNat 8 (b.toNat / 128) := by
  have hquot : b.toNat / 2 ^ 7 < 2 := by have := b.isLt; omega
  rw [flagByte_eq_ofNat, shiftedOutLeft, BitVec.getLsbD, Nat.toNat_testBit, Nat.mod_eq_of_lt hquot]
  rfl

/-! ### The shape of the ALU instructions (R120) -/

theorem State.next_setV_advance {b result : Byte} (x : RegIdx) (s : State) (hresult : b = result) :
    (.next (s.setV x b).advance : Host.Outcome State Fault Refusal) =
      .next { s with v := s.v.set x result, pc := s.pc + 2 } := by
  rw [← hresult]
  rfl

/-- The flag goes to VF first and the result to `V[x]` last (decision D7), whatever numbers they are given as. -/
theorem State.next_setFlagThen_advance {c : Bool} {b flag result : Byte} (x : RegIdx) (s : State)
    (hflag : flagByte c = flag) (hresult : b = result) :
    (.next (s.setFlagThen c x b).advance : Host.Outcome State Fault Refusal) =
      .next { s with v := (s.v.set VF flag).set x result, pc := s.pc + 2 } := by
  rw [← hflag, ← hresult]
  rfl

/-! ### Instructions that write `V[x]` only -/

/-- Settles O22: the byte sum is the sum of the numbers modulo 256. -/
theorem immediatesAndMove : Obligations.ImmediatesAndMove := fun x _ _ s =>
  ⟨s.next_setV_advance x rfl, s.next_setV_advance x (byte_add_eq _ _), s.next_setV_advance x rfl⟩

/-- Settles O23: each writes `V[x]` and advances. -/
theorem bitwiseLeaveVF : Obligations.BitwiseLeaveVF := fun x _ s =>
  ⟨s.next_setV_advance x rfl, s.next_setV_advance x rfl, s.next_setV_advance x rfl⟩

/-- Settles O27: the byte drawn is the input `rnd`, and a mask leaves no bit outside itself. -/
theorem randomAndForEveryByte : Obligations.RandomAndForEveryByte := by
  rintro x nn _ s rfl
  refine ⟨s.next_setV_advance x rfl, ?_⟩
  rw [BitVec.and_assoc, BitVec.and_not_self]
  exact BitVec.and_zero

/-! ### Instructions that write a flag and `V[x]` -/

/-- Settles O24: the carry is that of the sum of the numbers. -/
theorem addWritesCarryThenSum : Obligations.AddWritesCarryThenSum := fun x _ s =>
  s.next_setFlagThen_advance x (flagByte_decide _) (byte_add_eq _ _)

/-- Settles O25: both are a difference modulo 256 under its "no borrow", with the operands exchanged. -/
theorem subtractionsWriteNoBorrow : Obligations.SubtractionsWriteNoBorrow := fun x _ s =>
  ⟨s.next_setFlagThen_advance x (flagByte_decide _) (byte_sub_eq _ _),
    s.next_setFlagThen_advance x (flagByte_decide _) (byte_sub_eq _ _)⟩

/-- Settles O26: the lost bit is the remainder by 2, or the quotient by 128. -/
theorem shiftsWriteTheLostBit : Obligations.ShiftsWriteTheLostBit := fun x s =>
  ⟨s.next_setFlagThen_advance x (flagByte_shiftedOutRight _) (byte_shiftRight_one_eq _),
    s.next_setFlagThen_advance x (flagByte_shiftedOutLeft _) (byte_shiftLeft_one_eq _)⟩

end Sys2Proof.Machine
end

section
/-! Proofs for the family 44_index_memory.md: the writers of `I` (R141, R142, R146), the two stores and the load as they
go through or raise `MemFault` (R143 to R145), and a load undoing a dump. -/

namespace Sys2Proof.Machine

/-! ### The writers of `I` -/

theorem word_add_ofNat_eq (w : Word) (n : Nat) : w + BitVec.ofNat 16 n = BitVec.ofNat 16 ((w.toNat + n) % 65536) := by
  apply BitVec.eq_of_toNat_eq
  rw [BitVec.toNat_add, BitVec.toNat_ofNat, BitVec.toNat_ofNat, Nat.add_mod_mod, Nat.mod_mod]

theorem word_add_setWidth_eq (w : Word) (b : Byte) :
    w + b.setWidth 16 = BitVec.ofNat 16 ((w.toNat + b.toNat) % 65536) := by
  rw [← word_add_ofNat_eq, BitVec.ofNat_toNat]

/-- An instruction that writes `I` and advances, whatever number the new `I` is given as. -/
theorem State.next_setI_advance {w result : Word} (s : State) (hresult : w = result) :
    (.next { s with i := w }.advance : Host.Outcome State Fault Refusal) =
      .next { s with i := result, pc := s.pc + 2 } := by
  rw [← hresult]
  rfl

/-- Settles O28: the address is zero-extended, the sum wraps, and the product is written as it is. -/
theorem indexWrites : Obligations.IndexWrites := fun nnn x s =>
  ⟨s.next_setI_advance (BitVec.ofNat_toNat 16 nnn).symm, s.next_setI_advance (word_add_setWidth_eq s.i s.v[x]),
    s.next_setI_advance rfl⟩

/-! ### Accesses beyond 0xFFF -/

theorem exec_of_faultOf {i : Instr} {s : State} {f : Fault} (h : faultOf s i = some f) :
    exec i s = .next (s.raise f) := by
  obtain ⟨t, ht⟩ := exec_answers_next i s
  rcases exec_raises_faultOf ht with ⟨g, hg, rfl⟩ | ⟨hnone, -⟩
  · rw [ht, Option.some.inj (h.symm.trans hg)]
  · cases h.symm.trans hnone

/-! ### store-bcd -/

theorem exec_storeBcd_of_le {x : RegIdx} {s : State} (h : s.i.toNat + 2 ≤ 0xFFF) :
    exec (.storeBcd x) s =
      .next { s with mem := Memory.copyIn s.font s.mem s.i.toNat (bcdDigits s.v[x]), pc := s.pc + 2 } := by
  rw [exec, execStoreBcd, State.storing_eq, bcdDigits_length, if_pos (by omega)]
  rfl

theorem exec_storeBcd_memRead {x : RegIdx} {s t : State} {k : Nat} (h : exec (.storeBcd x) s = .next t)
    (hle : s.i.toNat + 2 ≤ 0xFFF) (hk : k < 3) : t.memRead (s.i.toNat + k) = some ((bcdDigits s.v[x])[k]'hk) := by
  rw [exec_storeBcd_of_le hle] at h
  cases h
  rw [State.memRead_of_le _ (by omega)]
  exact congrArg some (Memory.read_copyIn_inside s.font s.mem s.i.toNat hk)

/-- Settles O29: the bytes at `I`, `I + 1` and `I + 2` are the list of digits, and no other byte is stored to. -/
theorem storeBcdWritesThreeDigits : Obligations.StoreBcdWritesThreeDigits := by
  intro x s
  refine ⟨fun hle => ?_, fun hgt => exec_of_faultOf (faultOf_eq_memFault.mpr (.inl ⟨x, rfl, hgt⟩))⟩
  have hexec := exec_storeBcd_of_le (x := x) hle
  have hdigit {k : Nat} := exec_storeBcd_memRead (k := k) hexec hle
  exact ⟨_, hexec, rfl, hdigit (by decide : 0 < 3), hdigit (by decide : 1 < 3), hdigit (by decide : 2 < 3),
    fun a ha => memoryKeptButStoredBytes _ s _ a hexec ha⟩

/-! ### dump-registers -/

/-- Settles O30: the bytes from `I` to `I + x` are the registers, and no other byte is stored to. -/
theorem dumpRegistersCopiesToMemory : Obligations.DumpRegistersCopiesToMemory := by
  intro x s
  refine ⟨fun hle => ?_, fun hgt => exec_of_faultOf (faultOf_eq_memFault.mpr (.inr (.inl ⟨x, .inl rfl, hgt⟩)))⟩
  have hexec := exec_dumpRegisters_of_le hle
  refine ⟨_, hexec, ?next, fun k hk => exec_dumpRegisters_memRead hexec hle hk,
    fun a ha => memoryKeptButStoredBytes _ s _ a hexec ha⟩
  case next =>
    rw [Nat.add_assoc, ← word_add_ofNat_eq]
    rfl

/-! ### load-registers -/

theorem setRegsFrom_get_inside {bytes : List Byte} {r : RegIdx} (v : Vector Byte 16) (h : r.val < bytes.length) :
    (setRegsFrom 0 bytes v)[r] = bytes[r.val] := by
  refine (setRegsFrom_get bytes 0 v r r.isLt).trans ?_
  rw [if_pos (Nat.zero_le _)]
  exact List.getD_eq_getElem _ _ h

/-- A load that does not fault. -/
theorem exec_loadRegisters_of_le {x : RegIdx} {s : State} (h : s.i.toNat + x.val ≤ 0xFFF) :
    exec (.loadRegisters x) s =
      .next ({ s with v := setRegsFrom 0 ((List.range (x.val + 1)).map fun j =>
        Memory.read s.font s.mem (s.i.toNat + j)) s.v }.bumpIndex x).advance := by
  rw [exec, execLoadRegisters, State.loading_eq, if_pos (by omega)]

theorem exec_loadRegisters_get {x k : RegIdx} {s t : State} (h : exec (.loadRegisters x) s = .next t)
    (hle : s.i.toNat + x.val ≤ 0xFFF) (hk : k ≤ x) : s.memRead (s.i.toNat + k.val) = some t.v[k] := by
  have hkx : k.val ≤ x.val := hk
  rw [exec_loadRegisters_of_le hle] at h
  cases h
  rw [State.memRead_of_le _ (by omega), State.advance_v, State.bumpIndex_v,
    setRegsFrom_get_inside _ (by simpa using Nat.lt_succ_of_le hkx), List.getElem_map, List.getElem_range]

/-- Settles O31: the bytes read fill V0..Vx, which are all the registers a load names. -/
theorem loadRegistersCopiesFromMemory : Obligations.LoadRegistersCopiesFromMemory := by
  intro x s
  refine ⟨fun hle => ?_, fun hgt => exec_of_faultOf (faultOf_eq_memFault.mpr (.inr (.inl ⟨x, .inr rfl, hgt⟩)))⟩
  have hexec := exec_loadRegisters_of_le hle
  refine ⟨_, hexec, ?next, fun k hk => exec_loadRegisters_get hexec hle hk, fun k hk => ?above⟩
  case next =>
    rw [Nat.add_assoc, ← word_add_ofNat_eq]
    rfl
  case above =>
    exact registersKeptButDestinations _ s _ k hexec (decide_eq_false (not_le.mpr hk)) fun hflag => nomatch hflag.2

/-! ### Dump, then load -/

/-- Settles O32: the load reads the bytes that the dump left, and both are the registers' values. -/
theorem dumpThenLoadRoundTrip : Obligations.DumpThenLoadRoundTrip := by
  intro x s v p hle
  obtain ⟨t, hdump, -, hdumped, -⟩ := (dumpRegistersCopiesToMemory x s).1 hle
  obtain ⟨u, hload, hu, hloaded, habove⟩ :=
    (loadRegistersCopiesFromMemory x { t with v := v, i := s.i, pc := p }).1 hle
  exact ⟨t, u, hdump, hload, fun k hk => Option.some.inj ((hloaded k hk).symm.trans (hdumped k hk)), habove,
    (congrArg State.mem hu :)⟩

end Sys2Proof.Machine
end

section
/-! Proofs for the family 45_display.md: clear-screen (R151), the closed form of a draw (R152, R153 (d)), and two equal
draws undoing each other (R153 (c)). -/

namespace Sys2Proof.Machine

/-! ### Pixels -/

theorem Display.pixel_flip (d : Display) (y py : Fin 32) (x px : Fin 64) :
    (d.flip y x).pixel py px = (d.pixel py px ^^ decide (py = y ∧ px = x)) := by
  by_cases hy : py = y
  · subst hy
    simp [Display.flip, Display.pixel, Fin.ext_iff, eq_comm]
  · have hval : y.val ≠ py.val := fun h => hy (Fin.ext h.symm)
    simp [Display.flip, Display.pixel, hy, hval]

theorem Display.ext_pixel {d e : Display} (h : ∀ py px, d.pixel py px = e.pixel py px) : d = e :=
  Vector.ext fun y hy => BitVec.eq_of_getLsbD_eq fun x hx => h ⟨y, hy⟩ ⟨x, hx⟩

/-- Settles O35: the display is written blank and `DIRTY` set, whatever they were. -/
theorem clearScreenClearsAll : Obligations.ClearScreenClearsAll := fun _ => ⟨_, rfl, rfl, Display.pixel_blank⟩

/-! ### What a part of a draw does to the pixels it covers -/

/-- From `b` to `c` a draw flipped each pixel of `S` once and no other, and noted what it met (R152, R153 (d)). -/
structure Blit.Toggles (S : Fin 32 → Fin 64 → Prop) (b c : Blit) : Prop where
  /-- A pixel of `S` is flipped. -/
  covered : ∀ {py px}, S py px → c.disp.pixel py px = !(b.disp.pixel py px)
  /-- Any other pixel stays. -/
  uncovered : ∀ {py px}, ¬ S py px → c.disp.pixel py px = b.disp.pixel py px
  /-- A collision is noted exactly if there was one before, or a pixel of `S` was set. -/
  collision : c.collision = true ↔ b.collision = true ∨ ∃ py px, S py px ∧ b.disp.pixel py px = true
  /-- A change is noted exactly if there was one before, or `S` has a pixel. -/
  changed : c.changed = true ↔ b.changed = true ∨ ∃ py px, S py px

section
variable {S T : Fin 32 → Fin 64 → Prop} {b c d : Blit}

theorem Blit.Toggles.of_empty (hS : ∀ py px, ¬ S py px) (b : Blit) : b.Toggles S b where
  covered h := absurd h (hS _ _)
  uncovered _ := rfl
  collision := by simp [hS]
  changed := by simp [hS]

/-- One source bit: its pixel, if it is set, and else none. -/
theorem Blit.Toggles.dot_if (bit : Bool) (y : Fin 32) (x : Fin 64) (b : Blit) :
    b.Toggles (fun py px => bit = true ∧ py = y ∧ px = x) (if bit then b.dot y x else b) := by
  cases bit with
  | false => exact .of_empty (by simp) b
  | true =>
    constructor
    case covered => rintro _ _ ⟨-, rfl, rfl⟩; simp [Blit.dot, Display.pixel_flip]
    case uncovered =>
      intro py px h
      rw [if_pos rfl, Blit.dot, Display.pixel_flip, decide_eq_false fun hp => h ⟨rfl, hp⟩, Bool.xor_false]
    case collision => simp [Blit.dot]
    case changed => simp [Blit.dot]

/-- Two parts that share no pixel: the second meets its pixels as they were before the first (R153 (a)). -/
theorem Blit.Toggles.trans (h : b.Toggles S c) (h' : c.Toggles T d) (hdisj : ∀ py px, T py px → ¬ S py px) :
    b.Toggles (fun py px => S py px ∨ T py px) d where
  covered {py px} hp := by
    by_cases hT : T py px
    · rw [h'.covered hT, h.uncovered (hdisj _ _ hT)]
    · rw [h'.uncovered hT, h.covered (hp.resolve_right hT)]
  uncovered hp := by
    obtain ⟨hS, hT⟩ := not_or.mp hp
    rw [h'.uncovered hT, h.uncovered hS]
  collision := by
    have hmet : (∃ py px, T py px ∧ c.disp.pixel py px = true) ↔ ∃ py px, T py px ∧ b.disp.pixel py px = true :=
      exists₂_congr fun py px => and_congr_right fun hT => by rw [h.uncovered (hdisj _ _ hT)]
    simp only [h'.collision, h.collision, hmet, or_and_right, exists_or, or_assoc]
  changed := by simp only [h'.changed, h.changed, exists_or, or_assoc]

theorem Blit.Toggles.congr (h : b.Toggles S c) (hST : ∀ py px, S py px ↔ T py px) : b.Toggles T c := by
  obtain rfl : S = T := funext₂ fun py px => propext (hST py px)
  exact h

end

/-! ### The columns and the rows of a sprite -/

/-- The pixel is the image of a set bit among the columns `col` to `col + k - 1` of a sprite row drawn on row `y`. -/
def columnsCover (vx : Byte) (y : Fin 32) (bits : Byte) (col k : Nat) (py : Fin 32) (px : Fin 64) : Prop :=
  ∃ j, col ≤ j ∧ j < col + k ∧ bits.getLsbD (7 - j) = true ∧ py = y ∧ px = spriteColumn vx j

/-- The pixel is the image of a set bit of the sprite rows `bytes`, the first of which has number `row`. -/
def rowsCover (vx vy : Byte) (row : Nat) (bytes : List Byte) (py : Fin 32) (px : Fin 64) : Prop :=
  ∃ r bits, bytes[r]? = some bits ∧ columnsCover vx (spriteRow vy (row + r)) bits 0 8 py px

theorem spriteColumn_val (vx : Byte) (col : Nat) : (spriteColumn vx col).val = (vx.toNat + col) % 64 := rfl

theorem spriteRow_val (vy : Byte) (row : Nat) : (spriteRow vy row).val = (vy.toNat + row) % 32 := rfl

theorem columnsCover_succ {vx : Byte} {y : Fin 32} {bits : Byte} {col k : Nat} {py : Fin 32} {px : Fin 64} :
    (bits.getLsbD (7 - col) = true ∧ py = y ∧ px = spriteColumn vx col) ∨ columnsCover vx y bits (col + 1) k py px ↔
      columnsCover vx y bits col (k + 1) py px := by
  constructor
  · rintro (⟨hbit, hy, hx⟩ | ⟨j, hle, hlt, hj⟩)
    · exact ⟨col, le_rfl, by omega, hbit, hy, hx⟩
    · exact ⟨j, by omega, by omega, hj⟩
  · rintro ⟨j, hle, hlt, hj⟩
    rcases hle.eq_or_lt with rfl | hgt
    · exact .inl hj
    · exact .inr ⟨j, hgt, by omega, hj⟩

theorem rowsCover_cons {vx vy : Byte} {row : Nat} {bits : Byte} {rest : List Byte} {py : Fin 32} {px : Fin 64} :
    columnsCover vx (spriteRow vy row) bits 0 8 py px ∨ rowsCover vx vy (row + 1) rest py px ↔
      rowsCover vx vy row (bits :: rest) py px := by
  constructor
  · rintro (h | ⟨r, bits', hget, h⟩)
    · exact ⟨0, bits, rfl, h⟩
    · exact ⟨r + 1, bits', hget, by rwa [← Nat.add_assoc, Nat.add_right_comm]⟩
  · rintro ⟨r, bits', hget, h⟩
    cases r with
    | zero => cases hget; exact .inl h
    | succ r => exact .inr ⟨r, bits', hget, by rwa [Nat.add_right_comm]⟩

/-- Up to 64 columns land on as many pixels of the row. -/
theorem Blit.columns_toggles (vx : Byte) (y : Fin 32) (bits : Byte) (k : Nat) : ∀ (col : Nat) (b : Blit), k ≤ 64 →
    b.Toggles (columnsCover vx y bits col k) (b.columns vx y bits col k) := by
  induction k with
  | zero => exact fun col b _ => .of_empty (fun _ _ ⟨_, _, _, _⟩ => by omega) b
  | succ k ih =>
    intro col b hk
    have hdisj (py : Fin 32) (px : Fin 64) : columnsCover vx y bits (col + 1) k py px →
        ¬ (bits.getLsbD (7 - col) = true ∧ py = y ∧ px = spriteColumn vx col) := by
      rintro ⟨j, hle, hlt, -, -, hx⟩ ⟨-, -, hx'⟩
      have := congrArg Fin.val (hx.symm.trans hx')
      rw [spriteColumn_val, spriteColumn_val] at this
      omega
    exact ((Blit.Toggles.dot_if _ y _ b).trans (ih (col + 1) _ (by omega)) hdisj).congr fun _ _ => columnsCover_succ

/-- Up to 32 rows land on as many rows of the display. -/
theorem Blit.rows_toggles (vx vy : Byte) (bytes : List Byte) : ∀ (row : Nat) (b : Blit), bytes.length ≤ 32 →
    b.Toggles (rowsCover vx vy row bytes) (Blit.rows vx vy row bytes b) := by
  induction bytes with
  | nil => exact fun row b _ => .of_empty (fun _ _ ⟨_, _, hget, _⟩ => nomatch hget) b
  | cons bits rest ih =>
    intro row b hlen
    rw [List.length_cons] at hlen
    have hdisj (py : Fin 32) (px : Fin 64) : rowsCover vx vy (row + 1) rest py px →
        ¬ columnsCover vx (spriteRow vy row) bits 0 8 py px := by
      rintro ⟨r, _, hget, -, -, -, -, hy, -⟩ ⟨-, -, -, -, hy', -⟩
      have hr : r < rest.length := (List.getElem?_eq_some_iff.mp hget).1
      have := congrArg Fin.val (hy.symm.trans hy')
      rw [spriteRow_val, spriteRow_val] at this
      omega
    exact ((Blit.columns_toggles vx _ bits 8 0 b (by decide)).trans (ih (row + 1) _ (by omega)) hdisj).congr
      fun _ _ => rowsCover_cons

/-! ### draw-sprite -/

/-- The `n` sprite rows at `I`. -/
def State.spriteBytes (s : State) (n : Nat) : List Byte :=
  (List.range n).map fun j => Memory.read s.font s.mem (s.i.toNat + j)

/-- What a draw of `n` rows at `(V[x], V[y])` computes. -/
def State.spriteBlit (s : State) (x y : RegIdx) (n : Nat) : Blit := blit s.v[x] s.v[y] (s.spriteBytes n) s.disp

/-- A draw that does not fault. -/
theorem exec_drawSprite_of_le {x y : RegIdx} {n : Nat} {s : State} (h : n = 0 ∨ s.i.toNat + n - 1 ≤ 0xFFF) :
    exec (.drawSprite x y n) s = .next (s.drawn (s.spriteBlit x y n)).advance := by
  rw [exec, execDrawSprite, State.loading_eq, if_pos (by omega)]
  rfl

theorem State.spriteBytes_getElem?_eq_some {s : State} {n row : Nat} {b : Byte}
    (h : n = 0 ∨ s.i.toNat + n - 1 ≤ 0xFFF) :
    (s.spriteBytes n)[row]? = some b ↔ row < n ∧ s.memRead (s.i.toNat + row) = some b := by
  by_cases hrow : row < n
  · rw [State.memRead_of_le _ (by omega), and_iff_right hrow]
    simp [State.spriteBytes, hrow]
  · simp [State.spriteBytes, hrow]

/-- The pixels the blit covers are those of the closed form. -/
theorem State.rowsCover_spriteBytes_iff {x y : RegIdx} {n : Nat} {s : State} {py : Fin 32} {px : Fin 64}
    (h : n = 0 ∨ s.i.toNat + n - 1 ≤ 0xFFF) :
    rowsCover s.v[x] s.v[y] 0 (s.spriteBytes n) py px ↔ s.spriteCovers x y n py px := by
  simp only [rowsCover, columnsCover, State.spriteBytes_getElem?_eq_some h, Fin.ext_iff, spriteRow_val,
    spriteColumn_val, Nat.zero_add]
  constructor
  · rintro ⟨row, b, ⟨hrow, hread⟩, col, -, hcol, hbit, hy, hx⟩
    exact ⟨row, col, b, hrow, hcol, hread, hbit, hx, hy⟩
  · rintro ⟨row, col, b, hrow, hcol, hread, hbit, hx, hy⟩
    exact ⟨row, b, ⟨hrow, hread⟩, col, Nat.zero_le _, hcol, hbit, hy, hx⟩

theorem State.spriteBlit_toggles (x y : RegIdx) {n : Nat} {s : State} (hn : n ≤ 15)
    (h : n = 0 ∨ s.i.toNat + n - 1 ≤ 0xFFF) :
    Blit.Toggles (s.spriteCovers x y n) ⟨s.disp, false, false⟩ (s.spriteBlit x y n) :=
  (Blit.rows_toggles _ _ _ 0 _ (by simp [State.spriteBytes]; omega)).congr
    fun _ _ => State.rowsCover_spriteBytes_iff h

theorem State.drawn_get_VF (b : Blit) (s : State) : (s.drawn b).v[VF] = flagByte b.collision := by
  rw [State.drawn, State.setV_get, if_pos rfl]

theorem flagByte_of_iff {c : Bool} {p : Prop} (h : c = true ↔ p) : (p → flagByte c = 1) ∧ (¬ p → flagByte c = 0) := by
  rw [← h]
  cases c <;> simp [flagByte]

/-- Settles O36: the blit toggles the covered pixels, and a draw writes what the blit noted. -/
theorem drawSpriteXorsWrappedSprite : Obligations.DrawSpriteXorsWrappedSprite := by
  intro x y n s hn
  refine ⟨fun hle => ?draws, fun hpos hgt =>
    exec_of_faultOf (faultOf_eq_memFault.mpr (.inr (.inr ⟨x, y, n, rfl, hpos, hgt⟩)))⟩
  case draws =>
    obtain ⟨hcovered, huncovered, hcollision, hchanged⟩ := State.spriteBlit_toggles x y hn hle
    simp only [Bool.false_eq_true, false_or] at hcollision hchanged
    have hflag := flagByte_of_iff hcollision
    rw [← State.drawn_get_VF _ s] at hflag
    refine ⟨_, exec_drawSprite_of_le hle, ?next, fun py px => ⟨hcovered, huncovered⟩, hflag.1, hflag.2, ?dirty, ?clean⟩
    case next => rw [State.advance_v, State.drawn_get_VF]; rfl
    case dirty => intro h; simp [hchanged.mpr h]
    case clean => intro h; simp [Bool.eq_false_iff.mpr (mt hchanged.mp h)]

/-! ### Two equal draws -/

/-- Which pixels a draw covers depends on memory, `I` and the two position registers only. -/
theorem State.spriteCovers_congr {x y : RegIdx} {s t : State} (hmem : t.mem = s.mem) (hfont : t.font = s.font)
    (hi : t.i = s.i) (hx : t.v[x] = s.v[x]) (hy : t.v[y] = s.v[y]) : t.spriteCovers x y = s.spriteCovers x y := by
  unfold State.spriteCovers
  simp only [State.memRead_congr hmem hfont, hi, hx, hy]

theorem exec_drawSprite_get_other {x y r : RegIdx} {n : Nat} {s t : State} (h : exec (.drawSprite x y n) s = .next t)
    (hr : r ≠ VF) : t.v[r] = s.v[r] :=
  registersKeptButDestinations _ s _ r h rfl fun hflag => hr hflag.1

/-- Settles O37: the first draw keeps what places the sprite, so the second flips the same pixels back. -/
theorem drawTwiceRestoresDisplay : Obligations.DrawTwiceRestoresDisplay := by
  intro x y n s p hn hx hy hle
  obtain ⟨t, hfirst, ht, hpixel, -, hmissed, -⟩ := (drawSpriteXorsWrappedSprite x y n s hn).1 hle
  have hi : t.i = s.i := (congrArg State.i ht :)
  have hv {r : RegIdx} (hr : r ≠ VF) : t.v[r] = s.v[r] := exec_drawSprite_get_other hfirst hr
  have hcovers : State.spriteCovers { t with pc := p } x y = s.spriteCovers x y :=
    State.spriteCovers_congr (congrArg State.mem ht :) (congrArg State.font ht :) hi (hv hx) (hv hy)
  obtain ⟨u, hsecond, -, hpixel', hhit, hmissed', -⟩ :=
    (drawSpriteXorsWrappedSprite x y n { t with pc := p } hn).1 (by rwa [hi])
  rw [hcovers] at hpixel' hhit hmissed'
  refine ⟨t, u, hfirst, hsecond, Display.ext_pixel fun py px => ?restored, fun hclear => ⟨hmissed ?_, ?_, ?_⟩⟩
  case restored =>
    by_cases hp : s.spriteCovers x y n py px
    · rw [(hpixel' py px).1 hp, (hpixel py px).1 hp, Bool.not_not]
    · rw [(hpixel' py px).2 hp, (hpixel py px).2 hp]
  · rintro ⟨py, px, -, hset⟩
    exact Bool.false_ne_true ((hclear py px).symm.trans hset)
  · rintro ⟨py, px, hp⟩
    exact hhit ⟨py, px, hp, by rw [(hpixel py px).1 hp, hclear]; rfl⟩
  · exact fun hnone => hmissed' fun ⟨py, px, hp, _⟩ => hnone ⟨py, px, hp⟩

end Sys2Proof.Machine
end

section
/-! Proofs for the family 46_keypad_timers.md: the key skips (R160, R161, R167), wait-key (R162), the moves between the
timers and a register (R163 to R165), and TICK (R166). -/

namespace Sys2Proof.Machine

/-! ### The key skips -/

/-- The flag a key skip reads, by the key's number (R167). -/
theorem State.key_keyIndex (b : Byte) (s : State) :
    s.key[keyIndex b] = s.key[b.toNat % 16]'(Nat.mod_lt _ (by decide)) := by
  simp only [Fin.getElem_fin, keyIndex_val]

/-- Settles O38: both skips read the flag of key `V[x] mod 16`, and the second one negates it. -/
theorem keySkips : Obligations.KeySkips := by
  intro x s down hflag
  have hkey : s.key[keyIndex s.v[x]] = down := (s.key_keyIndex s.v[x]).trans hflag
  constructor
  case left => exact congrArg _ (s.skipIf_of_iff (by rw [hkey]))
  case right => exact congrArg _ (s.skipIf_of_iff (by rw [hkey, Bool.not_eq_true']))

/-! ### wait-key -/

/-- Settles O39: wait-key writes `BLOCKED` and `KTARGET` and advances, and reads no key. -/
theorem waitKeyBlocks : Obligations.WaitKeyBlocks := fun _ _ => rfl

/-! ### The timers -/

/-- Settles O40: get-delay writes `V[x]` and advances; the two others write their timer and advance. -/
theorem timerMoves : Obligations.TimerMoves := fun x s => ⟨s.next_setV_advance x rfl, rfl, rfl⟩

/-- A timer that is not above 0 stays as it is. -/
theorem countDown_eq_ite (b : Byte) : countDown b = if b.toNat > 0 then b - 1 else b := by
  unfold countDown
  by_cases hzero : b = 0
  · subst hzero; rfl
  · have hpos : b.toNat > 0 := by bv_omega
    rw [if_neg hzero, if_pos hpos]

/-- Settles O41: TICK counts down both timers, whether or not the core is blocked or halted. -/
theorem tickCountsDown : Obligations.TickCountsDown := fun s => by
  rw [← countDown_eq_ite, ← countDown_eq_ite]
  rfl

end Sys2Proof.Machine
end

section
/-! Proofs for the families 60_exceptions.md and 70_reset_and_hazards.md: the codes (R170, R171), precise faults (R172),
the halted core (R173, R174), and the jump to itself that ends a program (R197). -/

namespace Sys2Proof.Machine

/-! ### Codes -/

theorem Fault.code_ne_five_and_ne_six (f : Fault) : f.code ≠ 5 ∧ f.code ≠ 6 := by
  cases f <;> decide

/-- RomTooLarge and the unused code 6 are no report (60_exceptions.md R171). -/
theorem Report.code_ne_five_and_ne_six (r : Report) : r.code ≠ 5 ∧ r.code ≠ 6 := by
  cases r with
  | raised f => exact f.code_ne_five_and_ne_six
  | idle | ok | unknownOpcode => decide

/-- Settles O60: each code is the one written in its table, and no report has 5 or 6. -/
theorem errorAndReportCodes : Obligations.ErrorAndReportCodes :=
  ⟨rfl, rfl, rfl, rfl, rfl, rfl, rfl, rfl, fun _ => rfl, Report.code_ne_five_and_ne_six⟩

/-! ### Precise faults -/

/-- An instruction that halts a running core has raised, and done nothing else: within its footprint it writes no
`HALTED`. -/
theorem exec_eq_raise_of_halts {i : Instr} {s t : State} (h : exec i s = .next t) (hrun : s.halted = false)
    (hhalt : t.halted = true) : ∃ f : Fault, t = s.raise f := by
  rcases exec_raises_or_footprint h with hraise | hw
  · exact hraise
  · exact absurd (hhalt.symm.trans (hw.status.1.trans hrun)) (by decide)

/-- Settles O13: a raise writes `HALTED`, `CAUSE` and the report. -/
theorem faultsArePrecise : Obligations.FaultsArePrecise :=
  ⟨fun _ _ _ => exec_eq_raise_of_halts, rfl, rfl, rfl⟩

/-! ### The halted core -/

/-- What a halted core holds until the next RESET (R173, R174). Memory is not among it, since a LOAD still writes it. -/
structure Held where
  /-- `HALTED` (10_state.md R33). -/
  halted : Bool
  /-- `CAUSE` (R33). -/
  cause : BitVec 3
  /-- `PC` (R25). -/
  pc : Word
  /-- `V[0..15]` (R20). -/
  v : Vector Byte 16
  /-- `I` (R24). -/
  i : Word
  /-- `STACK[0..15]` (R27). -/
  stack : Vector Word 16
  /-- `SP` (R27). -/
  sp : Fin 17
  /-- `DISP` (R30). -/
  disp : Display
  /-- `UNK` (R34). -/
  unk : Bool
  /-- `BLOCKED` (R32). -/
  blocked : Bool

/-- The values of these fields in a state. -/
def State.held (s : State) : Held :=
  ⟨s.halted, s.cause, s.pc, s.v, s.i, s.stack, s.sp, s.disp, s.unk, s.blocked⟩

/-- An event that is no RESET: a STEP finds the gate closed (41_step_cycle.md R101), and a key-down meets no wait. -/
theorem applyEvent_held {e : Event} {s : State} (hh : s.halted = true) (hb : s.blocked = false)
    (hreset : e.isReset = false) : ∃ t, applyEvent e s = .next t ∧ t.held = s.held ∧ t.pending = s.pending := by
  cases e with
  | reset => cases hreset
  | load bytes => exact ⟨_, rfl, by simp [State.held], s.onLoad_pending bytes⟩
  | key c p =>
    have hwait : (p && s.blocked) = false := by rw [hb, Bool.and_false]
    exact ⟨_, congrArg Host.Outcome.next (State.onKey_of_not_waiting hwait), rfl, rfl⟩
  | takeDisplay => exact ⟨_, rfl, by simp [State.held], s.onTakeDisplay_pending⟩
  | step rnd => exact ⟨_, stepEvent_of_gate rnd (by rw [hh, Bool.true_or]), rfl, rfl⟩
  | tick => exact ⟨_, rfl, rfl, rfl⟩

/-- The run through any pending events but RESET. -/
theorem core_run_held (es : List Event) : ∀ {s : State}, s.halted = true → s.blocked = false → s.pending = es →
    (∀ e ∈ es, e.isReset = false) → ∃ t : State, core.run es.length s = .next t ∧ t.held = s.held := by
  induction es with
  | nil => intro s _ _ _ _; exact ⟨s, rfl, rfl⟩
  | cons e es ih =>
    intro s hh hb hp hes
    obtain ⟨hreset, htail⟩ := List.forall_mem_cons.mp hes
    obtain ⟨t, happly, hheld, htp⟩ := applyEvent_held (s := { s with pending := es }) hh hb hreset
    have hth : t.halted = true := (congrArg Held.halted hheld).trans hh
    have htb : t.blocked = false := (congrArg Held.blocked hheld).trans hb
    obtain ⟨u, hrun, hheld'⟩ := ih hth htb htp htail
    exact ⟨u, (core_run_succ es.length ((step_of_pending hp).trans happly)).trans hrun, hheld'.trans hheld⟩

/-- Settles O15: `HALTED` and `BLOCKED` are among the fields held, so they are as before. -/
theorem haltedStaysHaltedUntilReset : Obligations.HaltedStaysHaltedUntilReset := by
  intro es s hh hb hp hes
  obtain ⟨t, hrun, hheld⟩ := core_run_held es hh hb hp hes
  obtain ⟨hhalted, hcause, hpc, hv, hi, hstack, hsp, hdisp, hunk, hblocked⟩ := Held.mk.inj hheld
  exact ⟨t, hrun, hhalted.trans hh, hcause, hpc, hv, hi, hstack, hsp, hdisp, hunk, hblocked.trans hb⟩

/-! ### The jump to itself -/

theorem State.fetch_congr {s t : State} (hmem : t.mem = s.mem) (hfont : t.font = s.font) (hpc : t.pc = s.pc) :
    t.fetch = s.fetch := by
  rw [State.fetch_eq, State.fetch_eq, hmem, hfont, hpc]

/-- The end of a program is a matter of memory, `PC` and the gate. -/
theorem State.finished.of_eq {s t : State} (hs : s.finished) (hmem : t.mem = s.mem) (hfont : t.font = s.font)
    (hpc : t.pc = s.pc) (hhalted : t.halted = s.halted) (hblocked : t.blocked = s.blocked) : t.finished := by
  obtain ⟨hh, hb, w, nnn, hfetch, hdecode, htarget⟩ := hs
  exact ⟨hhalted.trans hh, hblocked.trans hb, w, nnn, (State.fetch_congr hmem hfont hpc).trans hfetch, hdecode,
    htarget.trans hpc.symm⟩

/-- A STEP executes the jump, whose target is the `PC` it finds; what remains is the start of the STEP. -/
theorem stepEvent_of_finished {s : State} (rnd : Byte) (hs : s.finished) :
    stepEvent rnd s = .next (s.beginStep rnd) := by
  obtain ⟨hh, hb, w, nnn, hfetch, hdecode, htarget⟩ := hs
  calc stepEvent rnd s = exec (.jump nnn) (s.beginStep rnd) :=
        stepEvent_of_instr rnd (State.gate_open hh hb) hfetch hdecode
    _ = .next { s.beginStep rnd with pc := nnn.setWidth 16 } := rfl
    _ = .next (s.beginStep rnd) := by rw [htarget]; rfl

/-- Settles O57: a STEP writes only its own input and report, and a TICK nothing that the convention reads. -/
theorem selfJumpIsAFixedPoint : Obligations.SelfJumpIsAFixedPoint := fun _ rnd hs =>
  ⟨stepEvent_of_finished rnd hs, _, rfl, hs.of_eq rfl rfl rfl rfl rfl, rfl⟩

end Sys2Proof.Machine
end
